-- ==== Sys2Proof/Word.lean ====
section
/-! DEFINITION. The word types of the core: 32-bit words and addresses (00_scope.md R5, R7), the
bytes they are made of (20_memory.md R63), and the numbers of the general registers (10_state.md R20). -/

namespace Sys2Proof

/-- A 32-bit register value, address or instruction word (R5 XLEN, R7). -/
abbrev Word := BitVec 32

/-- The smallest addressable unit of memory (R60). -/
abbrev Byte := BitVec 8

/-- A 16-bit halfword, as `l.lhz`, `l.lhs` and `l.sh` move it (R67). -/
abbrev Half := BitVec 16

/-- The number of a general register, r0 to r31 (R20); every number is a valid operand (R112). -/
abbrev Reg := Fin 32

end Sys2Proof
end

