-- ==== Sys2Proof/Syntax.lean ====
section
/-! DEFINITION. The instructions: one constructor for each row of spec/opcode_table.json, its operands in the order of the
assembler syntax (30_encoding.md R123) but for stores, whose registers stand before their offset. -/

namespace Sys2Proof

/-- The instructions of the opcode table. `d`, `a`, `b` are register numbers; `i` is a signed and `k` an unsigned 16-bit
immediate as encoded; `l` is a shift amount; `n` is a signed 26-bit word offset (30_encoding.md R112). -/
inductive Instr where
  -- 41_alu.md
  /-- `l.movhi rD,K` (R150). -/
  | movhi (d : Reg) (k : BitVec 16)
  /-- `l.addi rD,rA,I` (R151). -/
  | addi (d a : Reg) (i : BitVec 16)
  /-- `l.andi rD,rA,K` (R152). -/
  | andi (d a : Reg) (k : BitVec 16)
  /-- `l.ori rD,rA,K` (R153). -/
  | ori (d a : Reg) (k : BitVec 16)
  /-- `l.xori rD,rA,I` (R154). -/
  | xori (d a : Reg) (i : BitVec 16)
  /-- `l.muli rD,rA,I` (R155). -/
  | muli (d a : Reg) (i : BitVec 16)
  /-- `l.slli rD,rA,L`, L the 6-bit amount (R156). -/
  | slli (d a : Reg) (l : Nat)
  /-- `l.srli rD,rA,L`, L the 6-bit amount (R157). -/
  | srli (d a : Reg) (l : Nat)
  /-- `l.srai rD,rA,L`, L the 6-bit amount (R158). -/
  | srai (d a : Reg) (l : Nat)
  /-- `l.rori rD,rA,L`, L the 6-bit amount (R159). -/
  | rori (d a : Reg) (l : Nat)
  /-- `l.add rD,rA,rB` (R160). -/
  | add (d a b : Reg)
  /-- `l.sub rD,rA,rB` (R161). -/
  | sub (d a b : Reg)
  /-- `l.and rD,rA,rB` (R162). -/
  | and (d a b : Reg)
  /-- `l.or rD,rA,rB` (R163). -/
  | or (d a b : Reg)
  /-- `l.xor rD,rA,rB` (R164). -/
  | xor (d a b : Reg)
  /-- `l.mul rD,rA,rB` (R165). -/
  | mul (d a b : Reg)
  /-- `l.mulu rD,rA,rB` (R166). -/
  | mulu (d a b : Reg)
  /-- `l.div rD,rA,rB` (R167). -/
  | div (d a b : Reg)
  /-- `l.divu rD,rA,rB` (R168). -/
  | divu (d a b : Reg)
  /-- `l.sll rD,rA,rB` (R169). -/
  | sll (d a b : Reg)
  /-- `l.srl rD,rA,rB` (R170). -/
  | srl (d a b : Reg)
  /-- `l.sra rD,rA,rB` (R171). -/
  | sra (d a b : Reg)
  /-- `l.ror rD,rA,rB` (R172). -/
  | ror (d a b : Reg)
  /-- `l.exths rD,rA` (R173). -/
  | exths (d a : Reg)
  /-- `l.extbs rD,rA` (R174). -/
  | extbs (d a : Reg)
  /-- `l.exthz rD,rA` (R175). -/
  | exthz (d a : Reg)
  /-- `l.extbz rD,rA` (R176). -/
  | extbz (d a : Reg)
  /-- `l.cmov rD,rA,rB` (R177). -/
  | cmov (d a b : Reg)
  /-- `l.ff1 rD,rA` (R178). -/
  | ff1 (d a : Reg)
  /-- `l.fl1 rD,rA` (R179). -/
  | fl1 (d a : Reg)
  -- 42_compare.md
  /-- `l.sfeq rA,rB` (R190). -/
  | sfeq (a b : Reg)
  /-- `l.sfne rA,rB` (R191). -/
  | sfne (a b : Reg)
  /-- `l.sfgtu rA,rB` (R192). -/
  | sfgtu (a b : Reg)
  /-- `l.sfgeu rA,rB` (R193). -/
  | sfgeu (a b : Reg)
  /-- `l.sfltu rA,rB` (R194). -/
  | sfltu (a b : Reg)
  /-- `l.sfleu rA,rB` (R195). -/
  | sfleu (a b : Reg)
  /-- `l.sfgts rA,rB` (R196). -/
  | sfgts (a b : Reg)
  /-- `l.sfges rA,rB` (R197). -/
  | sfges (a b : Reg)
  /-- `l.sflts rA,rB` (R198). -/
  | sflts (a b : Reg)
  /-- `l.sfles rA,rB` (R199). -/
  | sfles (a b : Reg)
  /-- `l.sfeqi rA,I` (R200). -/
  | sfeqi (a : Reg) (i : BitVec 16)
  /-- `l.sfnei rA,I` (R201). -/
  | sfnei (a : Reg) (i : BitVec 16)
  /-- `l.sfgtui rA,I` (R202). -/
  | sfgtui (a : Reg) (i : BitVec 16)
  /-- `l.sfgeui rA,I` (R203). -/
  | sfgeui (a : Reg) (i : BitVec 16)
  /-- `l.sfltui rA,I` (R204). -/
  | sfltui (a : Reg) (i : BitVec 16)
  /-- `l.sfleui rA,I` (R205). -/
  | sfleui (a : Reg) (i : BitVec 16)
  /-- `l.sfgtsi rA,I` (R206). -/
  | sfgtsi (a : Reg) (i : BitVec 16)
  /-- `l.sfgesi rA,I` (R207). -/
  | sfgesi (a : Reg) (i : BitVec 16)
  /-- `l.sfltsi rA,I` (R208). -/
  | sfltsi (a : Reg) (i : BitVec 16)
  /-- `l.sflesi rA,I` (R209). -/
  | sflesi (a : Reg) (i : BitVec 16)
  -- 43_control.md
  /-- `l.j N`, N the signed word offset (R210). -/
  | j (n : BitVec 26)
  /-- `l.jal N`, N the signed word offset (R211). -/
  | jal (n : BitVec 26)
  /-- `l.bnf N`, N the signed word offset (R212). -/
  | bnf (n : BitVec 26)
  /-- `l.bf N`, N the signed word offset (R213). -/
  | bf (n : BitVec 26)
  /-- `l.jr rB` (R214). -/
  | jr (b : Reg)
  /-- `l.jalr rB` (R215). -/
  | jalr (b : Reg)
  /-- `l.nop K` (R216). -/
  | nop (k : BitVec 16)
  -- 44_load_store.md
  /-- `l.lwz rD,I(rA)` (R230). -/
  | lwz (d a : Reg) (i : BitVec 16)
  /-- `l.lws rD,I(rA)` (R231). -/
  | lws (d a : Reg) (i : BitVec 16)
  /-- `l.lbz rD,I(rA)` (R232). -/
  | lbz (d a : Reg) (i : BitVec 16)
  /-- `l.lbs rD,I(rA)` (R233). -/
  | lbs (d a : Reg) (i : BitVec 16)
  /-- `l.lhz rD,I(rA)` (R234). -/
  | lhz (d a : Reg) (i : BitVec 16)
  /-- `l.lhs rD,I(rA)` (R235). -/
  | lhs (d a : Reg) (i : BitVec 16)
  /-- `l.sw I(rA),rB` (R236). -/
  | sw (a b : Reg) (i : BitVec 16)
  /-- `l.sb I(rA),rB` (R237). -/
  | sb (a b : Reg) (i : BitVec 16)
  /-- `l.sh I(rA),rB` (R238). -/
  | sh (a b : Reg) (i : BitVec 16)
  -- 45_system.md
  /-- `l.mfspr rD,rA,K` (R250). -/
  | mfspr (d a : Reg) (k : BitVec 16)
  /-- `l.mtspr rA,rB,K` (R251). -/
  | mtspr (a b : Reg) (k : BitVec 16)
  /-- `l.sys K` (R252). -/
  | sys (k : BitVec 16)
  /-- `l.trap K` (R253). -/
  | trap (k : BitVec 16)
  /-- `l.rfe` (R254). -/
  | rfe
  /-- `l.msync` (R255). -/
  | msync
  /-- `l.psync` (R256). -/
  | psync
  /-- `l.csync` (R257). -/
  | csync
  -- 30_encoding.md R113: the refused rows, whose fixed bits are all the table gives them
  /-- `l.addc` (refused). -/
  | addc
  /-- `l.muld` (refused). -/
  | muld
  /-- `l.muldu` (refused). -/
  | muldu
  /-- `l.extws` (refused). -/
  | extws
  /-- `l.extwz` (refused). -/
  | extwz
  /-- `l.macrc` (refused). -/
  | macrc
  /-- `l.adrp` (refused). -/
  | adrp
  /-- `lv.*` (refused). -/
  | lv
  /-- `l.maci` (refused). -/
  | maci
  /-- `l.lf` (refused). -/
  | lf
  /-- `l.lwa` (refused). -/
  | lwa
  /-- `l.cust1` (refused). -/
  | cust1
  /-- `l.cust2` (refused). -/
  | cust2
  /-- `l.cust3` (refused). -/
  | cust3
  /-- `l.cust4` (refused). -/
  | cust4
  /-- `l.ld` (refused). -/
  | ld
  /-- `l.addic` (refused). -/
  | addic
  /-- `l.mac/l.msb/l.macu/l.msbu` (refused). -/
  | mac
  /-- `lf.*` (refused). -/
  | lfp
  /-- `l.swa` (refused). -/
  | swa
  /-- `l.sd` (refused). -/
  | sd
  /-- `l.cust5` (refused). -/
  | cust5
  /-- `l.cust6` (refused). -/
  | cust6
  /-- `l.cust7` (refused). -/
  | cust7
  /-- `l.cust8` (refused). -/
  | cust8
deriving DecidableEq, Repr

end Sys2Proof
end

