-- ==== Sys2Proof/WellFormed.lean ====
section
/-! DEFINITION. Which terms of the syntax are instructions: those whose every operand fits its field (30_encoding.md
R101 to R112). Register numbers and immediates fit by their types; the amount of an immediate shift must fit the 6-bit
field L (R108, R112). -/

namespace Sys2Proof

/-- Every operand fits the field that encodes it. -/
def Instr.wf : Instr → Bool
  | .movhi _ _ => true
  | .addi _ _ _ => true
  | .andi _ _ _ => true
  | .ori _ _ _ => true
  | .xori _ _ _ => true
  | .muli _ _ _ => true
  | .slli _ _ l => decide (l < 64)
  | .srli _ _ l => decide (l < 64)
  | .srai _ _ l => decide (l < 64)
  | .rori _ _ l => decide (l < 64)
  | .add _ _ _ => true
  | .sub _ _ _ => true
  | .and _ _ _ => true
  | .or _ _ _ => true
  | .xor _ _ _ => true
  | .mul _ _ _ => true
  | .mulu _ _ _ => true
  | .div _ _ _ => true
  | .divu _ _ _ => true
  | .sll _ _ _ => true
  | .srl _ _ _ => true
  | .sra _ _ _ => true
  | .ror _ _ _ => true
  | .exths _ _ => true
  | .extbs _ _ => true
  | .exthz _ _ => true
  | .extbz _ _ => true
  | .cmov _ _ _ => true
  | .ff1 _ _ => true
  | .fl1 _ _ => true
  | .sfeq _ _ => true
  | .sfne _ _ => true
  | .sfgtu _ _ => true
  | .sfgeu _ _ => true
  | .sfltu _ _ => true
  | .sfleu _ _ => true
  | .sfgts _ _ => true
  | .sfges _ _ => true
  | .sflts _ _ => true
  | .sfles _ _ => true
  | .sfeqi _ _ => true
  | .sfnei _ _ => true
  | .sfgtui _ _ => true
  | .sfgeui _ _ => true
  | .sfltui _ _ => true
  | .sfleui _ _ => true
  | .sfgtsi _ _ => true
  | .sfgesi _ _ => true
  | .sfltsi _ _ => true
  | .sflesi _ _ => true
  | .j _ => true
  | .jal _ => true
  | .bnf _ => true
  | .bf _ => true
  | .jr _ => true
  | .jalr _ => true
  | .nop _ => true
  | .lwz _ _ _ => true
  | .lws _ _ _ => true
  | .lbz _ _ _ => true
  | .lbs _ _ _ => true
  | .lhz _ _ _ => true
  | .lhs _ _ _ => true
  | .sw _ _ _ => true
  | .sb _ _ _ => true
  | .sh _ _ _ => true
  | .mfspr _ _ _ => true
  | .mtspr _ _ _ => true
  | .sys _ => true
  | .trap _ => true
  | .rfe => true
  | .msync => true
  | .psync => true
  | .csync => true
  | .addc => true
  | .muld => true
  | .muldu => true
  | .extws => true
  | .extwz => true
  | .macrc => true
  | .adrp => true
  | .lv => true
  | .maci => true
  | .lf => true
  | .lwa => true
  | .cust1 => true
  | .cust2 => true
  | .cust3 => true
  | .cust4 => true
  | .ld => true
  | .addic => true
  | .mac => true
  | .lfp => true
  | .swa => true
  | .sd => true
  | .cust5 => true
  | .cust6 => true
  | .cust7 => true
  | .cust8 => true

end Sys2Proof
end

