-- ==== Sys2Proof/Decode.lean ====
section
/-! DEFINITION. The decoder, total on every 32-bit word and on any bytes, which rejects by name (30_encoding.md R116 to R121),
and after it the encoder, written from the same tables, and the mask and match words of the opcode table. -/

namespace Sys2Proof

/-- Why a word is no instruction: it is an unassigned encoding (R114), named by the table it has no row in. -/
inductive DecodeReject where
  /-- The primary opcode is unassigned (R116). -/
  | unassignedPrimary
  /-- Primary opcode 0x05 with bits 25:24 other than 01 (R116). -/
  | unassignedNop
  /-- Primary opcode 0x08 with a secondary field without a row (R120). -/
  | unassignedSys
  /-- A compare with a condition field without a row (R118). -/
  | unassignedCondition
  /-- Primary opcode 0x38 with a combination without a row (R117). -/
  | unassignedAlu
  /-- Fewer than the four bytes of an instruction; no fetch gives this (notes/assumptions/24.md). -/
  | tooShort
deriving DecidableEq, Repr

/-! ### Fields of an instruction word (R100 to R112) -/

/-- The primary opcode, bits 31:26 (R100). -/
def opcodeOf (w : Word) : Nat := (w.extractLsb' 26 6).toNat

/-- The register number in the 5 bits from bit `lo` up. -/
def fieldReg (lo : Nat) (w : Word) : Reg := (w.extractLsb' lo 5).toFin

/-- The D field, bits 25:21 (R107). -/
def fieldD (w : Word) : Reg := fieldReg 21 w

/-- The A field, bits 20:16 (R107). -/
def fieldA (w : Word) : Reg := fieldReg 16 w

/-- The B field, bits 15:11 (R111). -/
def fieldB (w : Word) : Reg := fieldReg 11 w

/-- The 16-bit immediate, bits 15:0 (R107). -/
def fieldImm (w : Word) : BitVec 16 := w.extractLsb' 0 16

/-- The split immediate of format S, bits 25:21 then 10:0 (R110). -/
def fieldSplit (w : Word) : BitVec 16 := w.extractLsb' 21 5 ++ w.extractLsb' 0 11

/-- The word offset N, bits 25:0 (R101). -/
def fieldN (w : Word) : BitVec 26 := w.extractLsb' 0 26

/-- The shift amount L, bits 5:0 (R108). -/
def fieldL (w : Word) : Nat := (w.extractLsb' 0 6).toNat

/-- The condition field of the compares, bits 25:21 (R118). -/
def fieldCondition (w : Word) : Nat := (w.extractLsb' 21 5).toNat

/-! ### Secondary decoding -/

/-- Primary opcode 0x05 (R103, R116). -/
def decodeNop (w : Word) : Except DecodeReject Instr :=
  if w.extractLsb' 24 2 = 1#2 then .ok (.nop (fieldImm w)) else .error .unassignedNop

/-- Primary opcode 0x06: bit 16 tells `l.movhi` from `l.macrc` (R104, R116). -/
def decodeMovhi (w : Word) : Except DecodeReject Instr :=
  if w.extractLsb' 16 1 = 1#1 then .ok .macrc else .ok (.movhi (fieldD w) (fieldImm w))

/-- Primary opcode 0x08, by bits 31:16 (R120). -/
def decodeSys (w : Word) : Except DecodeReject Instr :=
  match (w.extractLsb' 16 16).toNat with
  | 0x2000 => .ok (.sys (fieldImm w))
  | 0x2100 => .ok (.trap (fieldImm w))
  | 0x2200 => .ok .msync
  | 0x2280 => .ok .psync
  | 0x2300 => .ok .csync
  | _ => .error .unassignedSys

/-- Primary opcode 0x2E, by bits 7:6 (R119). -/
def decodeShift (w : Word) : Except DecodeReject Instr :=
  match (w.extractLsb' 6 2).toNat with
  | 0 => .ok (.slli (fieldD w) (fieldA w) (fieldL w))
  | 1 => .ok (.srli (fieldD w) (fieldA w) (fieldL w))
  | 2 => .ok (.srai (fieldD w) (fieldA w) (fieldL w))
  | _ => .ok (.rori (fieldD w) (fieldA w) (fieldL w))

/-- Primary opcode 0x39, compares of two registers, by the condition field (R118). -/
def decodeSetFlag (w : Word) : Except DecodeReject Instr :=
  match fieldCondition w with
  | 0x00 => .ok (.sfeq (fieldA w) (fieldB w))
  | 0x01 => .ok (.sfne (fieldA w) (fieldB w))
  | 0x02 => .ok (.sfgtu (fieldA w) (fieldB w))
  | 0x03 => .ok (.sfgeu (fieldA w) (fieldB w))
  | 0x04 => .ok (.sfltu (fieldA w) (fieldB w))
  | 0x05 => .ok (.sfleu (fieldA w) (fieldB w))
  | 0x0A => .ok (.sfgts (fieldA w) (fieldB w))
  | 0x0B => .ok (.sfges (fieldA w) (fieldB w))
  | 0x0C => .ok (.sflts (fieldA w) (fieldB w))
  | 0x0D => .ok (.sfles (fieldA w) (fieldB w))
  | _ => .error .unassignedCondition

/-- Primary opcode 0x2F, compares with an immediate, by the condition field (R118). -/
def decodeSetFlagImm (w : Word) : Except DecodeReject Instr :=
  match fieldCondition w with
  | 0x00 => .ok (.sfeqi (fieldA w) (fieldImm w))
  | 0x01 => .ok (.sfnei (fieldA w) (fieldImm w))
  | 0x02 => .ok (.sfgtui (fieldA w) (fieldImm w))
  | 0x03 => .ok (.sfgeui (fieldA w) (fieldImm w))
  | 0x04 => .ok (.sfltui (fieldA w) (fieldImm w))
  | 0x05 => .ok (.sfleui (fieldA w) (fieldImm w))
  | 0x0A => .ok (.sfgtsi (fieldA w) (fieldImm w))
  | 0x0B => .ok (.sfgesi (fieldA w) (fieldImm w))
  | 0x0C => .ok (.sfltsi (fieldA w) (fieldImm w))
  | 0x0D => .ok (.sflesi (fieldA w) (fieldImm w))
  | _ => .error .unassignedCondition

/-- Primary opcode 0x38, by op2 (bits 9:8), op3 (bits 7:6) and op1 (bits 3:0) (R117). -/
def decodeAlu (w : Word) : Except DecodeReject Instr :=
  match (w.extractLsb' 8 2).toNat, (w.extractLsb' 6 2).toNat, (w.extractLsb' 0 4).toNat with
  | 0, _, 0x0 => .ok (.add (fieldD w) (fieldA w) (fieldB w))
  | 0, _, 0x1 => .ok .addc
  | 0, _, 0x2 => .ok (.sub (fieldD w) (fieldA w) (fieldB w))
  | 0, _, 0x3 => .ok (.and (fieldD w) (fieldA w) (fieldB w))
  | 0, _, 0x4 => .ok (.or (fieldD w) (fieldA w) (fieldB w))
  | 0, _, 0x5 => .ok (.xor (fieldD w) (fieldA w) (fieldB w))
  | 3, _, 0x6 => .ok (.mul (fieldD w) (fieldA w) (fieldB w))
  | 3, _, 0x7 => .ok .muld
  | 0, 0, 0x8 => .ok (.sll (fieldD w) (fieldA w) (fieldB w))
  | 0, 1, 0x8 => .ok (.srl (fieldD w) (fieldA w) (fieldB w))
  | 0, 2, 0x8 => .ok (.sra (fieldD w) (fieldA w) (fieldB w))
  | 0, 3, 0x8 => .ok (.ror (fieldD w) (fieldA w) (fieldB w))
  | 3, _, 0x9 => .ok (.div (fieldD w) (fieldA w) (fieldB w))
  | 3, _, 0xA => .ok (.divu (fieldD w) (fieldA w) (fieldB w))
  | 3, _, 0xB => .ok (.mulu (fieldD w) (fieldA w) (fieldB w))
  | 0, 0, 0xC => .ok (.exths (fieldD w) (fieldA w))
  | 0, 1, 0xC => .ok (.extbs (fieldD w) (fieldA w))
  | 0, 2, 0xC => .ok (.exthz (fieldD w) (fieldA w))
  | 0, 3, 0xC => .ok (.extbz (fieldD w) (fieldA w))
  | 3, _, 0xC => .ok .muldu
  | 0, 0, 0xD => .ok .extws
  | 0, 1, 0xD => .ok .extwz
  | 0, _, 0xE => .ok (.cmov (fieldD w) (fieldA w) (fieldB w))
  | 0, _, 0xF => .ok (.ff1 (fieldD w) (fieldA w))
  | 1, _, 0xF => .ok (.fl1 (fieldD w) (fieldA w))
  | _, _, _ => .error .unassignedAlu

/-! ### The decoder -/

/-- The instruction a word stands for (R116, R121): an admitted or a refused row of the table, or a rejection. The
halt word is not the decoder's: the cycle checks it first (R121, 40_fetch_and_sequencing.md R133). -/
def decode (w : Word) : Except DecodeReject Instr :=
  match opcodeOf w with
  | 0x00 => .ok (.j (fieldN w))
  | 0x01 => .ok (.jal (fieldN w))
  | 0x02 => .ok .adrp
  | 0x03 => .ok (.bnf (fieldN w))
  | 0x04 => .ok (.bf (fieldN w))
  | 0x05 => decodeNop w
  | 0x06 => decodeMovhi w
  | 0x08 => decodeSys w
  | 0x09 => .ok .rfe
  | 0x0A => .ok .lv
  | 0x11 => .ok (.jr (fieldB w))
  | 0x12 => .ok (.jalr (fieldB w))
  | 0x13 => .ok .maci
  | 0x1A => .ok .lf
  | 0x1B => .ok .lwa
  | 0x1C => .ok .cust1
  | 0x1D => .ok .cust2
  | 0x1E => .ok .cust3
  | 0x1F => .ok .cust4
  | 0x20 => .ok .ld
  | 0x21 => .ok (.lwz (fieldD w) (fieldA w) (fieldImm w))
  | 0x22 => .ok (.lws (fieldD w) (fieldA w) (fieldImm w))
  | 0x23 => .ok (.lbz (fieldD w) (fieldA w) (fieldImm w))
  | 0x24 => .ok (.lbs (fieldD w) (fieldA w) (fieldImm w))
  | 0x25 => .ok (.lhz (fieldD w) (fieldA w) (fieldImm w))
  | 0x26 => .ok (.lhs (fieldD w) (fieldA w) (fieldImm w))
  | 0x27 => .ok (.addi (fieldD w) (fieldA w) (fieldImm w))
  | 0x28 => .ok .addic
  | 0x29 => .ok (.andi (fieldD w) (fieldA w) (fieldImm w))
  | 0x2A => .ok (.ori (fieldD w) (fieldA w) (fieldImm w))
  | 0x2B => .ok (.xori (fieldD w) (fieldA w) (fieldImm w))
  | 0x2C => .ok (.muli (fieldD w) (fieldA w) (fieldImm w))
  | 0x2D => .ok (.mfspr (fieldD w) (fieldA w) (fieldImm w))
  | 0x2E => decodeShift w
  | 0x2F => decodeSetFlagImm w
  | 0x30 => .ok (.mtspr (fieldA w) (fieldB w) (fieldSplit w))
  | 0x31 => .ok .mac
  | 0x32 => .ok .lfp
  | 0x33 => .ok .swa
  | 0x34 => .ok .sd
  | 0x35 => .ok (.sw (fieldA w) (fieldB w) (fieldSplit w))
  | 0x36 => .ok (.sb (fieldA w) (fieldB w) (fieldSplit w))
  | 0x37 => .ok (.sh (fieldA w) (fieldB w) (fieldSplit w))
  | 0x38 => decodeAlu w
  | 0x39 => decodeSetFlag w
  | 0x3C => .ok .cust5
  | 0x3D => .ok .cust6
  | 0x3E => .ok .cust7
  | 0x3F => .ok .cust8
  | _ => .error .unassignedPrimary

/-- The word that four bytes store, the first the most significant (20_memory.md R63). -/
def wordOfBytes (b0 b1 b2 b3 : Byte) : Word := b0 ++ b1 ++ b2 ++ b3

/-- The four bytes of a word, the most significant first (20_memory.md R63). -/
def bytesOfWord (w : Word) : List Byte :=
  [w.extractLsb' 24 8, w.extractLsb' 16 8, w.extractLsb' 8 8, w.extractLsb' 0 8]

/-- The instruction at the front of some bytes, with the bytes after it (R100: four bytes, big-endian). -/
def decodeBytes : List Byte → Except DecodeReject (Instr × List Byte)
  | b0 :: b1 :: b2 :: b3 :: rest =>
    match decode (wordOfBytes b0 b1 b2 b3) with
    | .ok i => .ok (i, rest)
    | .error r => .error r
  | _ => .error .tooShort

/-- The instruction the decoder reads from an instruction whose bits are `w`, every bit from `nbits` up zero. An
instruction is one word (R100), so the bits of `w` are those of that word. -/
def decodeTableWord (nbits w : Nat) : Option Instr :=
  match decodeBytes (bytesOfWord (BitVec.ofNat 32 (w % 2 ^ nbits))) with
  | .ok (i, _) => some i
  | .error _ => none

/-! ### The encoder: the formats (R101 to R111), reserved fields zero -/

/-- The five bits of a register number. -/
def regBits (r : Reg) : BitVec 5 := BitVec.ofFin r

/-- Format J (R101). -/
def formatJ (op : BitVec 6) (n : BitVec 26) : Word := op ++ n

/-- Format JR (R102). -/
def formatJR (op : BitVec 6) (b : Reg) : Word := op ++ 0#10 ++ regBits b ++ 0#11

/-- Format NOP (R103). -/
def formatNop (k : BitVec 16) : Word := 0x15#8 ++ 0#8 ++ k

/-- Format MOVHI (R104). -/
def formatMovhi (d : Reg) (k : BitVec 16) : Word := 0x06#6 ++ regBits d ++ 0#5 ++ k

/-- Format SYS (R105). -/
def formatSys (sel : BitVec 16) (k : BitVec 16) : Word := sel ++ k

/-- Format I (R107). -/
def formatI (op : BitVec 6) (d a : Reg) (i : BitVec 16) : Word := op ++ regBits d ++ regBits a ++ i

/-- Format SH (R108). -/
def formatSh (op : BitVec 2) (d a : Reg) (l : Nat) : Word :=
  0x2E#6 ++ regBits d ++ regBits a ++ 0#8 ++ op ++ BitVec.ofNat 6 l

/-- Format SFI (R109). -/
def formatSfi (cond : BitVec 5) (a : Reg) (i : BitVec 16) : Word := 0x2F#6 ++ cond ++ regBits a ++ i

/-- Format SF (R109). -/
def formatSf (cond : BitVec 5) (a b : Reg) : Word := 0x39#6 ++ cond ++ regBits a ++ regBits b ++ 0#11

/-- Format S, the immediate split (R110). -/
def formatS (op : BitVec 6) (a b : Reg) (i : BitVec 16) : Word :=
  op ++ i.extractLsb' 11 5 ++ regBits a ++ regBits b ++ i.extractLsb' 0 11

/-- Format R (R111). -/
def formatR (op2 op3 : BitVec 2) (op1 : BitVec 4) (d a b : Reg) : Word :=
  0x38#6 ++ regBits d ++ regBits a ++ regBits b ++ 0#1 ++ op2 ++ op3 ++ 0#2 ++ op1

/-- The word of an instruction, its reserved fields zero; of a refused row, the fixed bits alone. -/
def encode : Instr → Word
  | .movhi d k => formatMovhi d k
  | .addi d a i => formatI 0x27#6 d a i
  | .andi d a k => formatI 0x29#6 d a k
  | .ori d a k => formatI 0x2A#6 d a k
  | .xori d a i => formatI 0x2B#6 d a i
  | .muli d a i => formatI 0x2C#6 d a i
  | .slli d a l => formatSh 0#2 d a l
  | .srli d a l => formatSh 1#2 d a l
  | .srai d a l => formatSh 2#2 d a l
  | .rori d a l => formatSh 3#2 d a l
  | .add d a b => formatR 0#2 0#2 0x0#4 d a b
  | .sub d a b => formatR 0#2 0#2 0x2#4 d a b
  | .and d a b => formatR 0#2 0#2 0x3#4 d a b
  | .or d a b => formatR 0#2 0#2 0x4#4 d a b
  | .xor d a b => formatR 0#2 0#2 0x5#4 d a b
  | .mul d a b => formatR 3#2 0#2 0x6#4 d a b
  | .mulu d a b => formatR 3#2 0#2 0xB#4 d a b
  | .div d a b => formatR 3#2 0#2 0x9#4 d a b
  | .divu d a b => formatR 3#2 0#2 0xA#4 d a b
  | .sll d a b => formatR 0#2 0#2 0x8#4 d a b
  | .srl d a b => formatR 0#2 1#2 0x8#4 d a b
  | .sra d a b => formatR 0#2 2#2 0x8#4 d a b
  | .ror d a b => formatR 0#2 3#2 0x8#4 d a b
  | .exths d a => formatR 0#2 0#2 0xC#4 d a 0
  | .extbs d a => formatR 0#2 1#2 0xC#4 d a 0
  | .exthz d a => formatR 0#2 2#2 0xC#4 d a 0
  | .extbz d a => formatR 0#2 3#2 0xC#4 d a 0
  | .cmov d a b => formatR 0#2 0#2 0xE#4 d a b
  | .ff1 d a => formatR 0#2 0#2 0xF#4 d a 0
  | .fl1 d a => formatR 1#2 0#2 0xF#4 d a 0
  | .sfeq a b => formatSf 0x00#5 a b
  | .sfne a b => formatSf 0x01#5 a b
  | .sfgtu a b => formatSf 0x02#5 a b
  | .sfgeu a b => formatSf 0x03#5 a b
  | .sfltu a b => formatSf 0x04#5 a b
  | .sfleu a b => formatSf 0x05#5 a b
  | .sfgts a b => formatSf 0x0A#5 a b
  | .sfges a b => formatSf 0x0B#5 a b
  | .sflts a b => formatSf 0x0C#5 a b
  | .sfles a b => formatSf 0x0D#5 a b
  | .sfeqi a i => formatSfi 0x00#5 a i
  | .sfnei a i => formatSfi 0x01#5 a i
  | .sfgtui a i => formatSfi 0x02#5 a i
  | .sfgeui a i => formatSfi 0x03#5 a i
  | .sfltui a i => formatSfi 0x04#5 a i
  | .sfleui a i => formatSfi 0x05#5 a i
  | .sfgtsi a i => formatSfi 0x0A#5 a i
  | .sfgesi a i => formatSfi 0x0B#5 a i
  | .sfltsi a i => formatSfi 0x0C#5 a i
  | .sflesi a i => formatSfi 0x0D#5 a i
  | .j n => formatJ 0x00#6 n
  | .jal n => formatJ 0x01#6 n
  | .bnf n => formatJ 0x03#6 n
  | .bf n => formatJ 0x04#6 n
  | .jr b => formatJR 0x11#6 b
  | .jalr b => formatJR 0x12#6 b
  | .nop k => formatNop k
  | .lwz d a i => formatI 0x21#6 d a i
  | .lws d a i => formatI 0x22#6 d a i
  | .lbz d a i => formatI 0x23#6 d a i
  | .lbs d a i => formatI 0x24#6 d a i
  | .lhz d a i => formatI 0x25#6 d a i
  | .lhs d a i => formatI 0x26#6 d a i
  | .sw a b i => formatS 0x35#6 a b i
  | .sb a b i => formatS 0x36#6 a b i
  | .sh a b i => formatS 0x37#6 a b i
  | .mfspr d a k => formatI 0x2D#6 d a k
  | .mtspr a b k => formatS 0x30#6 a b k
  | .sys k => formatSys 0x2000#16 k
  | .trap k => formatSys 0x2100#16 k
  | .rfe => 0x24000000#32
  | .msync => formatSys 0x2200#16 0#16
  | .psync => formatSys 0x2280#16 0#16
  | .csync => formatSys 0x2300#16 0#16
  | .addc => 0xE0000001#32
  | .muld => 0xE0000307#32
  | .muldu => 0xE000030C#32
  | .extws => 0xE000000D#32
  | .extwz => 0xE000004D#32
  | .macrc => 0x18010000#32
  | .adrp => 0x08000000#32
  | .lv => 0x28000000#32
  | .maci => 0x4C000000#32
  | .lf => 0x68000000#32
  | .lwa => 0x6C000000#32
  | .cust1 => 0x70000000#32
  | .cust2 => 0x74000000#32
  | .cust3 => 0x78000000#32
  | .cust4 => 0x7C000000#32
  | .ld => 0x80000000#32
  | .addic => 0xA0000000#32
  | .mac => 0xC4000000#32
  | .lfp => 0xC8000000#32
  | .swa => 0xCC000000#32
  | .sd => 0xD0000000#32
  | .cust5 => 0xF0000000#32
  | .cust6 => 0xF4000000#32
  | .cust7 => 0xF8000000#32
  | .cust8 => 0xFC000000#32

/-! ### The opcode table -/

/-- The mask of the instruction's row in spec/opcode_table.json: the bits that select it (R115). -/
def Instr.rowMask : Instr → Word
  | .movhi _ _ => 0xFC010000#32
  | .addi _ _ _ => 0xFC000000#32
  | .andi _ _ _ => 0xFC000000#32
  | .ori _ _ _ => 0xFC000000#32
  | .xori _ _ _ => 0xFC000000#32
  | .muli _ _ _ => 0xFC000000#32
  | .slli _ _ _ => 0xFC0000C0#32
  | .srli _ _ _ => 0xFC0000C0#32
  | .srai _ _ _ => 0xFC0000C0#32
  | .rori _ _ _ => 0xFC0000C0#32
  | .add _ _ _ => 0xFC00030F#32
  | .sub _ _ _ => 0xFC00030F#32
  | .and _ _ _ => 0xFC00030F#32
  | .or _ _ _ => 0xFC00030F#32
  | .xor _ _ _ => 0xFC00030F#32
  | .mul _ _ _ => 0xFC00030F#32
  | .mulu _ _ _ => 0xFC00030F#32
  | .div _ _ _ => 0xFC00030F#32
  | .divu _ _ _ => 0xFC00030F#32
  | .sll _ _ _ => 0xFC0003CF#32
  | .srl _ _ _ => 0xFC0003CF#32
  | .sra _ _ _ => 0xFC0003CF#32
  | .ror _ _ _ => 0xFC0003CF#32
  | .exths _ _ => 0xFC0003CF#32
  | .extbs _ _ => 0xFC0003CF#32
  | .exthz _ _ => 0xFC0003CF#32
  | .extbz _ _ => 0xFC0003CF#32
  | .cmov _ _ _ => 0xFC00030F#32
  | .ff1 _ _ => 0xFC00030F#32
  | .fl1 _ _ => 0xFC00030F#32
  | .sfeq _ _ => 0xFFE00000#32
  | .sfne _ _ => 0xFFE00000#32
  | .sfgtu _ _ => 0xFFE00000#32
  | .sfgeu _ _ => 0xFFE00000#32
  | .sfltu _ _ => 0xFFE00000#32
  | .sfleu _ _ => 0xFFE00000#32
  | .sfgts _ _ => 0xFFE00000#32
  | .sfges _ _ => 0xFFE00000#32
  | .sflts _ _ => 0xFFE00000#32
  | .sfles _ _ => 0xFFE00000#32
  | .sfeqi _ _ => 0xFFE00000#32
  | .sfnei _ _ => 0xFFE00000#32
  | .sfgtui _ _ => 0xFFE00000#32
  | .sfgeui _ _ => 0xFFE00000#32
  | .sfltui _ _ => 0xFFE00000#32
  | .sfleui _ _ => 0xFFE00000#32
  | .sfgtsi _ _ => 0xFFE00000#32
  | .sfgesi _ _ => 0xFFE00000#32
  | .sfltsi _ _ => 0xFFE00000#32
  | .sflesi _ _ => 0xFFE00000#32
  | .j _ => 0xFC000000#32
  | .jal _ => 0xFC000000#32
  | .bnf _ => 0xFC000000#32
  | .bf _ => 0xFC000000#32
  | .jr _ => 0xFC000000#32
  | .jalr _ => 0xFC000000#32
  | .nop _ => 0xFF000000#32
  | .lwz _ _ _ => 0xFC000000#32
  | .lws _ _ _ => 0xFC000000#32
  | .lbz _ _ _ => 0xFC000000#32
  | .lbs _ _ _ => 0xFC000000#32
  | .lhz _ _ _ => 0xFC000000#32
  | .lhs _ _ _ => 0xFC000000#32
  | .sw _ _ _ => 0xFC000000#32
  | .sb _ _ _ => 0xFC000000#32
  | .sh _ _ _ => 0xFC000000#32
  | .mfspr _ _ _ => 0xFC000000#32
  | .mtspr _ _ _ => 0xFC000000#32
  | .sys _ => 0xFFFF0000#32
  | .trap _ => 0xFFFF0000#32
  | .rfe => 0xFC000000#32
  | .msync => 0xFFFF0000#32
  | .psync => 0xFFFF0000#32
  | .csync => 0xFFFF0000#32
  | .addc => 0xFC00030F#32
  | .muld => 0xFC00030F#32
  | .muldu => 0xFC00030F#32
  | .extws => 0xFC0003CF#32
  | .extwz => 0xFC0003CF#32
  | .macrc => 0xFC010000#32
  | .adrp => 0xFC000000#32
  | .lv => 0xFC000000#32
  | .maci => 0xFC000000#32
  | .lf => 0xFC000000#32
  | .lwa => 0xFC000000#32
  | .cust1 => 0xFC000000#32
  | .cust2 => 0xFC000000#32
  | .cust3 => 0xFC000000#32
  | .cust4 => 0xFC000000#32
  | .ld => 0xFC000000#32
  | .addic => 0xFC000000#32
  | .mac => 0xFC000000#32
  | .lfp => 0xFC000000#32
  | .swa => 0xFC000000#32
  | .sd => 0xFC000000#32
  | .cust5 => 0xFC000000#32
  | .cust6 => 0xFC000000#32
  | .cust7 => 0xFC000000#32
  | .cust8 => 0xFC000000#32

/-- The match word of the instruction's row in spec/opcode_table.json. -/
def Instr.rowMatch : Instr → Word
  | .movhi _ _ => 0x18000000#32
  | .addi _ _ _ => 0x9C000000#32
  | .andi _ _ _ => 0xA4000000#32
  | .ori _ _ _ => 0xA8000000#32
  | .xori _ _ _ => 0xAC000000#32
  | .muli _ _ _ => 0xB0000000#32
  | .slli _ _ _ => 0xB8000000#32
  | .srli _ _ _ => 0xB8000040#32
  | .srai _ _ _ => 0xB8000080#32
  | .rori _ _ _ => 0xB80000C0#32
  | .add _ _ _ => 0xE0000000#32
  | .sub _ _ _ => 0xE0000002#32
  | .and _ _ _ => 0xE0000003#32
  | .or _ _ _ => 0xE0000004#32
  | .xor _ _ _ => 0xE0000005#32
  | .mul _ _ _ => 0xE0000306#32
  | .mulu _ _ _ => 0xE000030B#32
  | .div _ _ _ => 0xE0000309#32
  | .divu _ _ _ => 0xE000030A#32
  | .sll _ _ _ => 0xE0000008#32
  | .srl _ _ _ => 0xE0000048#32
  | .sra _ _ _ => 0xE0000088#32
  | .ror _ _ _ => 0xE00000C8#32
  | .exths _ _ => 0xE000000C#32
  | .extbs _ _ => 0xE000004C#32
  | .exthz _ _ => 0xE000008C#32
  | .extbz _ _ => 0xE00000CC#32
  | .cmov _ _ _ => 0xE000000E#32
  | .ff1 _ _ => 0xE000000F#32
  | .fl1 _ _ => 0xE000010F#32
  | .sfeq _ _ => 0xE4000000#32
  | .sfne _ _ => 0xE4200000#32
  | .sfgtu _ _ => 0xE4400000#32
  | .sfgeu _ _ => 0xE4600000#32
  | .sfltu _ _ => 0xE4800000#32
  | .sfleu _ _ => 0xE4A00000#32
  | .sfgts _ _ => 0xE5400000#32
  | .sfges _ _ => 0xE5600000#32
  | .sflts _ _ => 0xE5800000#32
  | .sfles _ _ => 0xE5A00000#32
  | .sfeqi _ _ => 0xBC000000#32
  | .sfnei _ _ => 0xBC200000#32
  | .sfgtui _ _ => 0xBC400000#32
  | .sfgeui _ _ => 0xBC600000#32
  | .sfltui _ _ => 0xBC800000#32
  | .sfleui _ _ => 0xBCA00000#32
  | .sfgtsi _ _ => 0xBD400000#32
  | .sfgesi _ _ => 0xBD600000#32
  | .sfltsi _ _ => 0xBD800000#32
  | .sflesi _ _ => 0xBDA00000#32
  | .j _ => 0x00000000#32
  | .jal _ => 0x04000000#32
  | .bnf _ => 0x0C000000#32
  | .bf _ => 0x10000000#32
  | .jr _ => 0x44000000#32
  | .jalr _ => 0x48000000#32
  | .nop _ => 0x15000000#32
  | .lwz _ _ _ => 0x84000000#32
  | .lws _ _ _ => 0x88000000#32
  | .lbz _ _ _ => 0x8C000000#32
  | .lbs _ _ _ => 0x90000000#32
  | .lhz _ _ _ => 0x94000000#32
  | .lhs _ _ _ => 0x98000000#32
  | .sw _ _ _ => 0xD4000000#32
  | .sb _ _ _ => 0xD8000000#32
  | .sh _ _ _ => 0xDC000000#32
  | .mfspr _ _ _ => 0xB4000000#32
  | .mtspr _ _ _ => 0xC0000000#32
  | .sys _ => 0x20000000#32
  | .trap _ => 0x21000000#32
  | .rfe => 0x24000000#32
  | .msync => 0x22000000#32
  | .psync => 0x22800000#32
  | .csync => 0x23000000#32
  | .addc => 0xE0000001#32
  | .muld => 0xE0000307#32
  | .muldu => 0xE000030C#32
  | .extws => 0xE000000D#32
  | .extwz => 0xE000004D#32
  | .macrc => 0x18010000#32
  | .adrp => 0x08000000#32
  | .lv => 0x28000000#32
  | .maci => 0x4C000000#32
  | .lf => 0x68000000#32
  | .lwa => 0x6C000000#32
  | .cust1 => 0x70000000#32
  | .cust2 => 0x74000000#32
  | .cust3 => 0x78000000#32
  | .cust4 => 0x7C000000#32
  | .ld => 0x80000000#32
  | .addic => 0xA0000000#32
  | .mac => 0xC4000000#32
  | .lfp => 0xC8000000#32
  | .swa => 0xCC000000#32
  | .sd => 0xD0000000#32
  | .cust5 => 0xF0000000#32
  | .cust6 => 0xF4000000#32
  | .cust7 => 0xF8000000#32
  | .cust8 => 0xFC000000#32

/-- The bits of the operand fields of the instruction's row in spec/opcode_table.json. What is in neither mask is a reserved
field (R115). -/
def Instr.operandMask : Instr → Word
  | .movhi _ _ => 0x03E0FFFF#32
  | .addi _ _ _ => 0x03FFFFFF#32
  | .andi _ _ _ => 0x03FFFFFF#32
  | .ori _ _ _ => 0x03FFFFFF#32
  | .xori _ _ _ => 0x03FFFFFF#32
  | .muli _ _ _ => 0x03FFFFFF#32
  | .slli _ _ _ => 0x03FF003F#32
  | .srli _ _ _ => 0x03FF003F#32
  | .srai _ _ _ => 0x03FF003F#32
  | .rori _ _ _ => 0x03FF003F#32
  | .add _ _ _ => 0x03FFF800#32
  | .sub _ _ _ => 0x03FFF800#32
  | .and _ _ _ => 0x03FFF800#32
  | .or _ _ _ => 0x03FFF800#32
  | .xor _ _ _ => 0x03FFF800#32
  | .mul _ _ _ => 0x03FFF800#32
  | .mulu _ _ _ => 0x03FFF800#32
  | .div _ _ _ => 0x03FFF800#32
  | .divu _ _ _ => 0x03FFF800#32
  | .sll _ _ _ => 0x03FFF800#32
  | .srl _ _ _ => 0x03FFF800#32
  | .sra _ _ _ => 0x03FFF800#32
  | .ror _ _ _ => 0x03FFF800#32
  | .exths _ _ => 0x03FF0000#32
  | .extbs _ _ => 0x03FF0000#32
  | .exthz _ _ => 0x03FF0000#32
  | .extbz _ _ => 0x03FF0000#32
  | .cmov _ _ _ => 0x03FFF800#32
  | .ff1 _ _ => 0x03FF0000#32
  | .fl1 _ _ => 0x03FF0000#32
  | .sfeq _ _ => 0x001FF800#32
  | .sfne _ _ => 0x001FF800#32
  | .sfgtu _ _ => 0x001FF800#32
  | .sfgeu _ _ => 0x001FF800#32
  | .sfltu _ _ => 0x001FF800#32
  | .sfleu _ _ => 0x001FF800#32
  | .sfgts _ _ => 0x001FF800#32
  | .sfges _ _ => 0x001FF800#32
  | .sflts _ _ => 0x001FF800#32
  | .sfles _ _ => 0x001FF800#32
  | .sfeqi _ _ => 0x001FFFFF#32
  | .sfnei _ _ => 0x001FFFFF#32
  | .sfgtui _ _ => 0x001FFFFF#32
  | .sfgeui _ _ => 0x001FFFFF#32
  | .sfltui _ _ => 0x001FFFFF#32
  | .sfleui _ _ => 0x001FFFFF#32
  | .sfgtsi _ _ => 0x001FFFFF#32
  | .sfgesi _ _ => 0x001FFFFF#32
  | .sfltsi _ _ => 0x001FFFFF#32
  | .sflesi _ _ => 0x001FFFFF#32
  | .j _ => 0x03FFFFFF#32
  | .jal _ => 0x03FFFFFF#32
  | .bnf _ => 0x03FFFFFF#32
  | .bf _ => 0x03FFFFFF#32
  | .jr _ => 0x0000F800#32
  | .jalr _ => 0x0000F800#32
  | .nop _ => 0x0000FFFF#32
  | .lwz _ _ _ => 0x03FFFFFF#32
  | .lws _ _ _ => 0x03FFFFFF#32
  | .lbz _ _ _ => 0x03FFFFFF#32
  | .lbs _ _ _ => 0x03FFFFFF#32
  | .lhz _ _ _ => 0x03FFFFFF#32
  | .lhs _ _ _ => 0x03FFFFFF#32
  | .sw _ _ _ => 0x03FFFFFF#32
  | .sb _ _ _ => 0x03FFFFFF#32
  | .sh _ _ _ => 0x03FFFFFF#32
  | .mfspr _ _ _ => 0x03FFFFFF#32
  | .mtspr _ _ _ => 0x03FFFFFF#32
  | .sys _ => 0x0000FFFF#32
  | .trap _ => 0x0000FFFF#32
  | .rfe => 0x00000000#32
  | .msync => 0x00000000#32
  | .psync => 0x00000000#32
  | .csync => 0x00000000#32
  | .addc => 0x00000000#32
  | .muld => 0x00000000#32
  | .muldu => 0x00000000#32
  | .extws => 0x00000000#32
  | .extwz => 0x00000000#32
  | .macrc => 0x00000000#32
  | .adrp => 0x00000000#32
  | .lv => 0x00000000#32
  | .maci => 0x00000000#32
  | .lf => 0x00000000#32
  | .lwa => 0x00000000#32
  | .cust1 => 0x00000000#32
  | .cust2 => 0x00000000#32
  | .cust3 => 0x00000000#32
  | .cust4 => 0x00000000#32
  | .ld => 0x00000000#32
  | .addic => 0x00000000#32
  | .mac => 0x00000000#32
  | .lfp => 0x00000000#32
  | .swa => 0x00000000#32
  | .sd => 0x00000000#32
  | .cust5 => 0x00000000#32
  | .cust6 => 0x00000000#32
  | .cust7 => 0x00000000#32
  | .cust8 => 0x00000000#32

end Sys2Proof
end

