-- ==== Sys2Proof/Config.lean ====
section
/-! DEFINITION. What an implementation of the core fixes (the OPEN parameters of 00_scope.md R5) and the
free values of the model: the values the spec says are drawn (R10), and the answers of the peripheral
(20_memory.md R68), which are opaque. -/

namespace Sys2Proof

/-- The width of a data access or fetch: 1, 2 or 4 bytes (20_memory.md R67). -/
inductive Width where
  | byte
  | half
  | word
deriving DecidableEq, Repr

/-- The parameter USER_SYSTEM_ACCESS (R5, 60_exceptions.md R296). -/
inductive UserAccess where
  /-- `l.mfspr`, `l.mtspr` and `l.rfe` in user mode are refused; the spec's default. -/
  | refuse
  /-- They execute in user mode as in supervisor mode. -/
  | allow
deriving DecidableEq, Repr

/-- The parameter PICSR_WRITE (R5, 10_state.md R37). -/
inductive PicsrWrite where
  /-- `l.mtspr` of PICSR is ignored; the spec's default. -/
  | ignore
  /-- `l.mtspr` of PICSR stores. -/
  | store
deriving DecidableEq, Repr

/-- The parameter TICK_ARMED_MODES, a subset of the modes 01, 10 and 11 (R5); mode 00 never arms
(DEDUCED: notes/assumptions/20.md, safe). -/
structure TickModes where
  /-- TTMR.M = 01 arms the comparator. -/
  m01 : Bool
  /-- TTMR.M = 10 arms the comparator. -/
  m10 : Bool
  /-- TTMR.M = 11 arms the comparator. -/
  m11 : Bool
deriving DecidableEq, Repr

/-- The OPEN parameters of 00_scope.md R5. The spec's state summary (10_state.md R50) lists them, so State
carries them; no step and no Reset changes them (70_reset_and_hazards.md R323). -/
structure Config where
  /-- MAX_RAM_ADDRESS: the last RAM byte address (20_memory.md R62). -/
  maxRamAddress : Word
  /-- UART_BASE: the physical base of the 8-byte peripheral window (R62). -/
  uartBase : Word
  /-- UART_IRQ_BIT: the bit of the interrupt word the peripheral drives (60_exceptions.md R293). -/
  uartIrqBit : Fin 32
  /-- HALT_WORD: the simulator-halt word, or none (40_fetch_and_sequencing.md R133). -/
  haltWord : Option Word
  /-- CFG_VR (10_state.md R44). -/
  vr : Word
  /-- CFG_UPR (R44). -/
  upr : Word
  /-- CFG_CPUCFGR (R44). -/
  cpucfgr : Word
  /-- CFG_DMMUCFGR (R44). -/
  dmmucfgr : Word
  /-- CFG_IMMUCFGR (R44). -/
  immucfgr : Word
  /-- TICK_ARMED_MODES (60_exceptions.md R287). -/
  tickArmed : TickModes
  /-- USER_SYSTEM_ACCESS (60_exceptions.md R296). -/
  userSystemAccess : UserAccess
  /-- PICSR_WRITE (10_state.md R37). -/
  picsrWrite : PicsrWrite
deriving DecidableEq, Repr

/-- The values State.reset starts with: the defaults of 00_scope.md R5 and 95_test_vectors.md, and the values
92_eei_decisions.md D22 suggests for the configuration registers. DESIGN CHOICE, unsafe: `vr` (no suggested value)
and `uartIrqBit` (no default) are the model's own (notes/assumptions/1.md). -/
def Config.standard : Config where
  maxRamAddress := 0x000FFFFF#32
  uartBase := 0x90000000#32
  uartIrqBit := 2
  haltWord := none
  vr := 0#32
  upr := 0x00000619#32
  cpucfgr := 0x00000020#32
  dmmucfgr := 0x00000018#32
  immucfgr := 0x00000018#32
  tickArmed := { m01 := true, m10 := false, m11 := true }
  userSystemAccess := .refuse
  picsrWrite := .ignore

/-- What the spec requires of the memory map's parameters (20_memory.md R62, 92_eei_decisions.md D30):
MAX_RAM_ADDRESS + 1 is a multiple of 8192, UART_BASE is a multiple of 8 and above MAX_RAM_ADDRESS. -/
def Config.wf (c : Config) : Bool :=
  decide ((c.maxRamAddress.toNat + 1) % 8192 = 0) && decide (c.uartBase.toNat % 8 = 0) &&
    decide (c.maxRamAddress.toNat < c.uartBase.toNat)

/-- One thing that happened to the peripheral. Every device access is an observable event (20_memory.md R68);
the host's keypress injection and output drain act on the peripheral too (60_exceptions.md R300). -/
inductive DeviceEvent where
  /-- A read the core issued, with the answer: a value, or `none` for a fault. -/
  | read (pa : Word) (w : Width) (answer : Option Word)
  /-- A write the core issued, and whether the device accepted it. -/
  | write (pa : Word) (w : Width) (v : Word) (accepted : Bool)
  /-- The host injected a keypress. -/
  | keypress (b : Byte)
  /-- The host drained the output. -/
  | drain
deriving DecidableEq, Repr

/-- The values the spec says are drawn (00_scope.md R10), one for each index. A free value: no body, so a claim
holds for every value (notes/assumptions/3.md, safe). -/
opaque Config.drawn : Nat → Word

/-- The peripheral's answer to a read of physical address `pa` after the given history (newest event first): a value,
or `none` for a fault (20_memory.md R61, R68; 92_eei_decisions.md D31). A free value (notes/assumptions/4.md, safe). -/
opaque Config.deviceRead : List DeviceEvent → Word → Width → Option Word

/-- Whether the peripheral accepts a write after the given history (R61, D31). A free value (notes/assumptions/4.md, safe). -/
opaque Config.deviceAccepts : List DeviceEvent → Word → Width → Word → Bool

end Sys2Proof
end

