-- ==== Sys2Proof/Machine/State.lean ====
section
/-! DEFINITION. The state of the machine as plain data (10_state.md R50), its reset value (70_reset_and_hazards.md R320), and
the names of what it is made of: exception kinds and causes, MMU sides, special registers, host calls, faults and
refusals. -/

namespace Sys2Proof.Machine

/-- RAM: the bytes that differ from what an unlisted address reads as, by rising physical address. -/
abbrev Memory := List Host.Cell

/-- The two sides of translation (20_memory.md R60). -/
inductive Side where
  /-- The instruction MMU, SPR group 2. -/
  | insn
  /-- The data MMU, SPR group 1. -/
  | data
deriving DecidableEq, Repr

/-- One MMU: its control word (10_state.md R38) and the match and translate registers of its 128 TLB sets (R39), of which
sets 0 to 63 translate. The storage of sets 64 to 127 is written and never read back (R43, notes/assumptions/15.md). -/
structure Mmu where
  /-- xMMUCR. -/
  cr : Word
  /-- xTLBMR[0..127]. -/
  mr : Vector Word 128
  /-- xTLBTR[0..127]. -/
  tr : Vector Word 128
deriving DecidableEq, Repr

/-- The exception kinds, in the order of their codes (60_exceptions.md R270). -/
inductive ExcKind where
  /-- Code 0: no exception. -/
  | none
  /-- Code 1: never dispatched (R276). -/
  | reset
  /-- Code 2. -/
  | busError
  /-- Code 3. -/
  | dataPageFault
  /-- Code 4. -/
  | insnPageFault
  /-- Code 5. -/
  | tick
  /-- Code 6. -/
  | alignment
  /-- Code 7. -/
  | illegal
  /-- Code 8. -/
  | external
  /-- Code 9. -/
  | dtlbMiss
  /-- Code 10. -/
  | itlbMiss
  /-- Code 11: never dispatched (R276). -/
  | range
  /-- Code 12. -/
  | syscall
  /-- Code 13: never dispatched (R276). -/
  | floatingPoint
  /-- Code 14. -/
  | trap
deriving DecidableEq, Repr

/-- What can be dispatched, each with the faulting address where its kind carries one (R270, R276). -/
inductive Cause where
  /-- A physical access nothing claims, or the device refuses (20_memory.md R69). -/
  | busError (addr : Word)
  /-- Data permission denied (R74). -/
  | dataPageFault (addr : Word)
  /-- Execute permission denied (R73). -/
  | insnPageFault (addr : Word)
  /-- A match of the tick timer (60_exceptions.md R288). -/
  | tick
  /-- A misaligned access or fetch (20_memory.md R65, R66). -/
  | alignment (addr : Word)
  /-- An unassigned encoding (30_encoding.md R114). -/
  | illegal
  /-- A rising edge of a permitted interrupt line (60_exceptions.md R290). -/
  | external
  /-- A data TLB miss (20_memory.md R72). -/
  | dtlbMiss (addr : Word)
  /-- An instruction TLB miss (R72). -/
  | itlbMiss (addr : Word)
  /-- `l.sys` (45_system.md R252). -/
  | syscall
  /-- `l.trap` (45_system.md R253). -/
  | trap
deriving DecidableEq, Repr

/-- What a special-register address names (10_state.md R46); the TLB registers by side and set. -/
inductive Spr where
  | vr
  | upr
  | cpucfgr
  | dmmucfgr
  | immucfgr
  | sr
  | epcr0
  | eear0
  | esr0
  | mmucr (side : Side)
  | tlbmr (side : Side) (set : Fin 128)
  | tlbtr (side : Side) (set : Fin 128)
  | picmr
  | picsr
  | ttmr
  | ttcr
  /-- An address outside the table: reads as zero, ignores writes (R47). -/
  | unnamed
deriving DecidableEq, Repr

/-- What claims a physical access (20_memory.md R62). -/
inductive Region where
  | ram
  | device
  | unmapped
deriving DecidableEq, Repr

/-- What a Run call returns (60_exceptions.md R300, R301). -/
inductive RunResult where
  | stop
  | continue
deriving DecidableEq, Repr

/-- Where the host's Run call stands (the model's bookkeeping, notes/assumptions/10.md). -/
inductive RunStatus where
  /-- No Run call was made yet. -/
  | ready
  /-- A Run call is under way, with so many cycles of its budget left. -/
  | running (left : Nat)
  /-- The last Run call returned this. -/
  | returned (r : RunResult)
deriving DecidableEq, Repr

/-- The calls of the host that change the machine (60_exceptions.md R300). -/
inductive HostCall where
  /-- `Reset()`. -/
  | reset
  /-- `Run(n)`, and whether the peripheral asserts its interrupt line at its start (R293). -/
  | run (n : Nat) (asserted : Bool)
  /-- `SetReg(i, v)`. -/
  | setReg (r : Reg) (v : Word)
  /-- `SetPC(v)`. -/
  | setPc (v : Word)
  /-- `SetSpReg(a, v)`. -/
  | setSpr (a : BitVec 16) (v : Word)
  /-- The load of a memory image at a physical offset. -/
  | loadImage (offset : Nat) (bytes : List Byte)
  /-- Injection of a keypress. -/
  | keypress (b : Byte)
  /-- Drain of the output. -/
  | drainOutput
deriving DecidableEq, Repr

/-- The rows of the opcode table whose presence in the hardware no source shows (30_encoding.md R113). -/
inductive UnsourcedRow where
  | addc
  | muld
  | muldu
  | extws
  | extwz
  | macrc
  | adrp
  | vector
  | maci
  | lf
  | lwa
  | cust1
  | cust2
  | cust3
  | cust4
  | ld
  | addic
  | mac
  | floatingPoint
  | swa
  | sd
  | cust5
  | cust6
  | cust7
  | cust8
deriving DecidableEq, Repr

/-- Why the machine stops with a fault. Only the host's image load answers one; every fault of an instruction or a fetch
is an exception the machine takes. -/
inductive Fault where
  /-- Raised by the host call `loadImage` when the image would overflow RAM (70_reset_and_hazards.md R322: the load fails and
  that is reported). Safe: nothing is loaded and nothing runs on (notes/assumptions/13.md). -/
  | imageOverflowsRam
  /-- Raised by the host call `loadImage` when the image's length is not a multiple of 4 (R322: a rejected input). Safe, as
  above. -/
  | imageLengthNotWords
deriving DecidableEq, Repr

/-- Why the model gives a situation no meaning: the spec's `refuse` (00_scope.md R10), under a name for each reason. Every
one is safe: no claim can rest on what follows. -/
inductive Refusal where
  /-- Raised by an arm of `exec` whose instruction has no meaning yet; no arm raises it now. -/
  | notModelled (mnemonic : String)
  /-- Raised by the meanings of the refused rows: no source shows whether the hardware has the instruction
  (30_encoding.md R113). -/
  | presenceUnknown (row : UnsourcedRow)
  /-- Raised by a jump or branch, taken or not, in a delay slot (40_fetch_and_sequencing.md R140). -/
  | transferInDelaySlot
  /-- Raised by `l.rfe` in a delay slot (R140). -/
  | rfeInDelaySlot
  /-- Raised by `l.sys` in a delay slot (R140). -/
  | sysInDelaySlot
  /-- Raised by an immediate shift or rotate with an amount of 32 or more (41_alu.md R156 to R159). -/
  | shiftAmountAbove31
  /-- Raised by `l.div` of -2^31 by -1 (41_alu.md R167). -/
  | divisionOverflow
  /-- Raised by `l.mfspr` in user mode when USER_SYSTEM_ACCESS is `refuse` (60_exceptions.md R296). -/
  | userMfspr
  /-- Raised by `l.mtspr` in user mode when USER_SYSTEM_ACCESS is `refuse` (R296). -/
  | userMtspr
  /-- Raised by `l.rfe` in user mode when USER_SYSTEM_ACCESS is `refuse` (R296). -/
  | userRfe
deriving DecidableEq, Repr

/-- The state: the architectural state of 10_state.md R50, the RAM, and the model's own fields `device`, `draws`, `calls`,
`run` and `halted`. -/
structure State where
  /-- r0 to r31 (R20). -/
  gpr : Vector Word 32
  /-- The address of the instruction fetched next, and of the one that executes (R23). -/
  pc : Word
  /-- DF, the delay-slot flag (R24). -/
  df : Bool
  /-- DNPC, the delayed next pc (R24). -/
  dnpc : Word
  /-- The supervision register (R25). -/
  sr : Word
  /-- The saved pc (R31). -/
  epcr0 : Word
  /-- The faulting address (R32). -/
  eear0 : Word
  /-- The saved SR (R33). -/
  esr0 : Word
  /-- The tick-timer mode register (R34). -/
  ttmr : Word
  /-- The tick-timer count register (R35). -/
  ttcr : Word
  /-- The interrupt mask (R36). -/
  picmr : Word
  /-- The interrupt status: the last sampled interrupt word (R37). -/
  picsr : Word
  /-- The data MMU (R38 to R41). -/
  dmmu : Mmu
  /-- The instruction MMU (R38 to R40, R42). -/
  immu : Mmu
  /-- RAM (20_memory.md R62). -/
  mem : Memory
  /-- The OPEN parameters (R50; 00_scope.md R5). -/
  cfg : Config
  /-- The model's own: what happened to the peripheral, newest first (20_memory.md R68). -/
  device : List DeviceEvent
  /-- The model's own: how many values were drawn (00_scope.md R10). -/
  draws : Nat
  /-- The model's own: the host calls still to be made (60_exceptions.md R300). -/
  calls : List HostCall
  /-- The model's own: where the Run call stands (R301). -/
  run : RunStatus
  /-- The halted mark: the last cycle fetched HALT_WORD (40_fetch_and_sequencing.md R133). -/
  halted : Bool
deriving DecidableEq, Repr

/-- An MMU after reset: every register zero, so no entry is valid (70_reset_and_hazards.md R320). -/
def Mmu.reset : Mmu where
  cr := 0#32
  mr := Vector.replicate 128 0#32
  tr := Vector.replicate 128 0#32

/-- The machine right after reset (R320), with the standard parameters (notes/assumptions/1.md), RAM that lists nothing
(notes/assumptions/2.md), and no host call to come. -/
def State.reset : State where
  gpr := Vector.replicate 32 0#32
  pc := 0#32
  df := false
  dnpc := 0#32
  sr := 0x00008001#32
  epcr0 := 0#32
  eear0 := 0#32
  esr0 := 0#32
  ttmr := 0#32
  ttcr := 0#32
  picmr := 0#32
  picsr := 0#32
  dmmu := Mmu.reset
  immu := Mmu.reset
  mem := []
  cfg := Config.standard
  device := []
  draws := 0
  calls := []
  run := .ready
  halted := false

end Sys2Proof.Machine
end

