-- ==== Sys2Proof/Machine/Flags.lean ====
section
/-! DEFINITION. The fields of SR (10_state.md R25), the one condition flag F (R29) and the conditions the compares set it
by (30_encoding.md R118). -/

namespace Sys2Proof.Machine

/-- SR.FO, bit 15: always 1 (R26). -/
def srFO : Word := 0x00008000#32

/-- SR.DSX, bit 13. -/
def srDSX : Word := 0x00002000#32

/-- SR.F, bit 9. -/
def srF : Word := 0x00000200#32

/-- SR.SM, bit 0. -/
def srSM : Word := 0x00000001#32

/-- The bits of SR with a function: SM, TEE, IEE, DME, IME, F, DSX, FO (R25; the mask 95_test_vectors.md gives). -/
def srFunctional : Word := 0x0000A267#32

/-- SR.SM: supervisor mode (R30). -/
def State.sm (s : State) : Bool := s.sr.getLsbD 0

/-- SR.TEE: tick-timer exception enable. -/
def State.tee (s : State) : Bool := s.sr.getLsbD 1

/-- SR.IEE: external-interrupt exception enable. -/
def State.iee (s : State) : Bool := s.sr.getLsbD 2

/-- SR.DME: data MMU enable (R27). -/
def State.dme (s : State) : Bool := s.sr.getLsbD 5

/-- SR.IME: instruction MMU enable (R27). -/
def State.ime (s : State) : Bool := s.sr.getLsbD 6

/-- SR.F: the compare flag (R29). -/
def State.flag (s : State) : Bool := s.sr.getLsbD 9

/-- A write of SR from outside the flag logic: FO stays 1 whatever is written (R26); the MMU enables are SR's own bits,
so the side effects of R27 need no more. -/
def State.setSr (s : State) (v : Word) : State := { s with sr := v ||| srFO }

/-- The write of F by a compare: no other bit of SR changes (42_compare.md). -/
def State.setFlag (s : State) (f : Bool) : State :=
  { s with sr := if f then s.sr ||| srF else s.sr &&& ~~~srF }

/-- The ten conditions of the compares (30_encoding.md R118). -/
inductive Condition where
  | eq
  | ne
  | gtu
  | geu
  | ltu
  | leu
  | gts
  | ges
  | lts
  | les
deriving DecidableEq, Repr

/-- Whether a condition holds of two words, read as unsigned or signed integers (00_scope.md R7, 42_compare.md). -/
def Condition.test : Condition → Word → Word → Bool
  | .eq, x, y => x == y
  | .ne, x, y => x != y
  | .gtu, x, y => decide (x.toNat > y.toNat)
  | .geu, x, y => decide (x.toNat ≥ y.toNat)
  | .ltu, x, y => decide (x.toNat < y.toNat)
  | .leu, x, y => decide (x.toNat ≤ y.toNat)
  | .gts, x, y => decide (x.toInt > y.toInt)
  | .ges, x, y => decide (x.toInt ≥ y.toInt)
  | .lts, x, y => decide (x.toInt < y.toInt)
  | .les, x, y => decide (x.toInt ≤ y.toInt)

end Sys2Proof.Machine
end

