-- ==== Sys2Proof/Machine/Operands.lean ====
section
/-! DEFINITION. The operand forms: general registers (10_state.md R20 to R22), the extensions and immediates (30_encoding.md
R112), effective addresses (44_load_store.md), jump offsets (43_control.md) and special-register addresses (45_system.md
R250), and the arithmetic of the ALU that is more than one operator (41_alu.md). -/

namespace Sys2Proof.Machine

/-- The read of a general register; it has no side effect (10_state.md R22). -/
def State.reg (s : State) (r : Reg) : Word := s.gpr[r.val]

/-- The write of a general register; r0 is written as any other (R21). -/
def State.setReg (s : State) (r : Reg) (v : Word) : State := { s with gpr := s.gpr.set r.val v }

/-- The link register, r9 (R22). -/
def linkReg : Reg := 9

/-- `sext_16` (00_scope.md R7). -/
def sext16 (v : Half) : Word := v.signExtend 32

/-- `zext_16`. -/
def zext16 (v : Half) : Word := v.zeroExtend 32

/-- `sext_8`. -/
def sext8 (v : Byte) : Word := v.signExtend 32

/-- `zext_8`. -/
def zext8 (v : Byte) : Word := v.zeroExtend 32

/-- The low byte of a word. -/
def lowByte (v : Word) : Byte := v.extractLsb' 0 8

/-- The low halfword of a word. -/
def lowHalf (v : Word) : Half := v.extractLsb' 0 16

/-- EA = x[A] + sext_16(I), modulo 2^32 (44_load_store.md). -/
def State.effectiveAddress (s : State) (a : Reg) (i : BitVec 16) : Word := s.reg a + sext16 i

/-- The byte offset of an immediate transfer, sext_26(N) << 2 (43_control.md). -/
def jumpOffset (n : BitVec 26) : Word := n.signExtend 32 <<< 2

/-- The target of an immediate transfer, relative to the pc and modulo 2^32 (43_control.md R217). -/
def State.jumpTarget (s : State) (n : BitVec 26) : Word := s.pc + jumpOffset n

/-- The special-register address (x[A] | zext_16(K))[15:0] (45_system.md R250). -/
def State.sprAddress (s : State) (a : Reg) (k : BitVec 16) : BitVec 16 := lowHalf (s.reg a ||| zext16 k)

/-- The amount of a shift by register: rB[4:0] (41_alu.md R169). -/
def shiftAmount (v : Word) : Nat := (v.extractLsb' 0 5).toNat

/-- Rotation to the right by `n` (R159, R172). -/
def rotateRight (v : Word) (n : Nat) : Word := if n = 0 then v else (v >>> n) ||| (v <<< (32 - n))

/-- The low 32 bits of the exact signed product (R155, R165). -/
def mulSigned (x y : Word) : Word := BitVec.ofInt 32 (x.toInt * y.toInt)

/-- The low 32 bits of the exact unsigned product (R166). -/
def mulUnsigned (x y : Word) : Word := BitVec.ofNat 32 (x.toNat * y.toNat)

/-- The signed quotient, truncated toward zero; 0 for a zero divisor (R167). -/
def divSigned (x y : Word) : Word := if y = 0#32 then 0#32 else BitVec.ofInt 32 (x.toInt.tdiv y.toInt)

/-- The operands whose signed quotient does not fit: -2^31 and -1 (R167). -/
def divOverflows (x y : Word) : Bool := x == 0x80000000#32 && y == 0xFFFFFFFF#32

/-- The unsigned quotient, rounded down; 0 for a zero divisor (R168). -/
def divUnsigned (x y : Word) : Word := if y = 0#32 then 0#32 else BitVec.ofNat 32 (x.toNat / y.toNat)

/-- One more than the index of the least significant 1 bit; 0 of 0 (R178). -/
def findFirstOne (v : Word) : Word :=
  match (List.range 32).find? (fun k => v.getLsbD k) with
  | some k => BitVec.ofNat 32 (k + 1)
  | none => 0#32

/-- One more than the index of the most significant 1 bit; 0 of 0 (R179). -/
def findLastOne (v : Word) : Word :=
  match (List.range 32).reverse.find? (fun k => v.getLsbD k) with
  | some k => BitVec.ofNat 32 (k + 1)
  | none => 0#32

end Sys2Proof.Machine
end

