-- ==== Sys2Proof/Machine/Ops.lean ====
section
/-! DEFINITION. The operations every instruction and every cycle share: memory and the physical interface (20_memory.md R61 to
R69), translation (R70 to R76), the data access primitives (R78), taking an exception and returning from one
(60_exceptions.md R270 to R279), and the sequencing of pc (40_fetch_and_sequencing.md R136 to R139). -/

namespace Sys2Proof.Machine

/-! ### Memory -/

/-- What a byte of RAM that nothing has written reads as. DESIGN CHOICE, unsafe: the spec leaves it open
(70_reset_and_hazards.md R322, notes/assumptions/2.md). -/
def Memory.unwritten : Byte := 0#8

/-- The byte at a physical address. -/
def Memory.read : Memory → Nat → Byte
  | [], _ => Memory.unwritten
  | (k, b) :: rest, a => if a = k then b else Memory.read rest a

/-- The memory with one byte written, in the canonical form. -/
def Memory.write : Memory → Nat → Byte → Memory
  | [], a, v => if v = Memory.unwritten then [] else [(a, v)]
  | (k, b) :: rest, a, v =>
    if a < k then
      if v = Memory.unwritten then (k, b) :: rest else (a, v) :: (k, b) :: rest
    else if a = k then
      if v = Memory.unwritten then rest else (a, v) :: rest
    else (k, b) :: Memory.write rest a v

/-- The canonical form: addresses strictly rising, and no entry equal to what an unlisted address reads as. -/
def Memory.wf : Memory → Bool
  | [] => true
  | (k, b) :: rest => b != Memory.unwritten && rest.all (fun c => decide (k < c.1)) && Memory.wf rest

/-- Every address a memory lists is below `n`. -/
def Memory.below (m : Memory) (n : Nat) : Bool := m.all (fun c => decide (c.1 < n))

/-- The bytes of a list written at rising addresses from `a` on. -/
def Memory.writeBytes : Memory → Nat → List Byte → Memory
  | m, _, [] => m
  | m, a, b :: bs => Memory.writeBytes (Memory.write m a b) (a + 1) bs

/-- How many bytes an access of a width moves (20_memory.md R67). -/
def widthBytes : Width → Nat
  | .byte => 1
  | .half => 2
  | .word => 4

/-- The value of so many bytes from `a` on, the byte at `a` the most significant (R63), zero-extended to a word. -/
def Memory.readValue (m : Memory) (a : Nat) : Width → Word
  | .byte => zext8 (m.read a)
  | .half => zext16 (m.read a ++ m.read (a + 1))
  | .word => m.read a ++ m.read (a + 1) ++ m.read (a + 2) ++ m.read (a + 3)

/-- The bytes a write of a width stores, the most significant first (R63). -/
def storedBytes (v : Word) : Width → List Byte
  | .byte => [v.extractLsb' 0 8]
  | .half => [v.extractLsb' 8 8, v.extractLsb' 0 8]
  | .word => [v.extractLsb' 24 8, v.extractLsb' 16 8, v.extractLsb' 8 8, v.extractLsb' 0 8]

/-- The write of the low bytes of a value at `a` (R63). -/
def Memory.writeValue (m : Memory) (a : Nat) (w : Width) (v : Word) : Memory := m.writeBytes a (storedBytes v w)

/-- The low n*8 bits of a value, zero-extended (00_scope.md R9). -/
def lowBits (v : Word) : Width → Word
  | .byte => zext8 (lowByte v)
  | .half => zext16 (lowHalf v)
  | .word => v

/-! ### The physical interface -/

/-- What claims a physical access: RAM or the peripheral window when every byte of it lies there (R62,
notes/assumptions/16.md), else nothing. -/
def regionOf (cfg : Config) (pa : Word) (w : Width) : Region :=
  if pa.toNat + widthBytes w ≤ cfg.maxRamAddress.toNat + 1 then .ram
  else if cfg.uartBase.toNat ≤ pa.toNat ∧ pa.toNat + widthBytes w ≤ cfg.uartBase.toNat + 8 then .device
  else .unmapped

/-- `PhysRead` (R61): the value, or none for a fault. A device read is an oracle answer and an event (R68). -/
def physRead (pa : Word) (w : Width) (s : State) : Option Word × State :=
  match regionOf s.cfg pa w with
  | .ram => (some (s.mem.readValue pa.toNat w), s)
  | .device =>
    let answer := (Config.deviceRead s.device pa w).map (fun v => lowBits v w)
    (answer, { s with device := .read pa w answer :: s.device })
  | .unmapped => (none, s)

/-- `PhysWrite` (R61) of the low bits of a value: whether it was accepted. A write the device refuses changes nothing but
the record of events. -/
def physWrite (pa : Word) (w : Width) (v : Word) (s : State) : Bool × State :=
  match regionOf s.cfg pa w with
  | .ram => (true, { s with mem := s.mem.writeValue pa.toNat w v })
  | .device =>
    let accepted := Config.deviceAccepts s.device pa w (lowBits v w)
    (accepted, { s with device := .write pa w (lowBits v w) accepted :: s.device })
  | .unmapped => (false, s)

/-! ### Translation -/

/-- The MMU of a side. -/
def State.mmu (s : State) : Side → Mmu
  | .insn => s.immu
  | .data => s.dmmu

/-- Whether a side translates, by the SR value at the time of the access (R70). -/
def State.translates (s : State) : Side → Bool
  | .insn => s.ime
  | .data => s.dme

/-- The TLB set of an address, va[18:13], one of the 64 used sets (R72). -/
def tlbSet (va : Word) : Fin 128 := ⟨(va.extractLsb' 13 6).toNat, by omega⟩

/-- The page number, bits 31:13, of an address, a match register or a translate register (R72, R75). -/
def pageNumber (v : Word) : BitVec 19 := v.extractLsb' 13 19

/-- The entry hits: valid, and its tag is the page number of the address (R72). -/
def tlbHits (mr va : Word) : Bool := mr.getLsbD 0 && pageNumber mr == pageNumber va

/-- The permission bit that decides an access of a side in a mode (R73, R74). -/
def permitted (side : Side) (isWrite supervisor : Bool) (tr : Word) : Bool :=
  match side with
  | .insn => if supervisor then tr.getLsbD 6 else tr.getLsbD 7
  | .data =>
    if isWrite then if supervisor then tr.getLsbD 9 else tr.getLsbD 7
    else if supervisor then tr.getLsbD 8 else tr.getLsbD 6

/-- The TLB-miss exception of a side (R72). -/
def missCause : Side → Word → Cause
  | .insn, va => .itlbMiss va
  | .data, va => .dtlbMiss va

/-- The page-fault exception of a side (R73, R74). -/
def faultCause : Side → Word → Cause
  | .insn, va => .insnPageFault va
  | .data, va => .dataPageFault va

/-- `Translate(side, va, isWrite)` (R76): the physical address, or what is raised. -/
def translate (side : Side) (isWrite : Bool) (va : Word) (s : State) : Except Cause Word :=
  if s.translates side then
    let mr := (s.mmu side).mr[(tlbSet va).val]
    let tr := (s.mmu side).tr[(tlbSet va).val]
    if tlbHits mr va then
      if permitted side isWrite s.sm tr then .ok (pageNumber tr ++ va.extractLsb' 0 13)
      else .error (faultCause side va)
    else .error (missCause side va)
  else .ok va

/-! ### The access primitives -/

/-- What an access gives: a value, or an exception to raise; either way the state after it, in which the peripheral may
have seen the access. -/
inductive Access (α : Type) where
  | ok (v : α) (s : State)
  | exc (c : Cause) (s : State)

/-- A misaligned address for a width (R65). -/
def misaligned (va : Word) : Width → Bool
  | .byte => false
  | .half => va.getLsbD 0
  | .word => va.extractLsb' 0 2 != 0#2

/-- The aligned read of a side: translation, then the physical read, a fault of which is a bus error at the virtual
address (R69, R78; 40_fetch_and_sequencing.md R132). -/
def readVia (side : Side) (va : Word) (w : Width) (s : State) : Access Word :=
  if misaligned va w then .exc (.alignment va) s
  else
    match translate side false va s with
    | .error c => .exc c s
    | .ok pa =>
      match physRead pa w s with
      | (some v, s') => .ok v s'
      | (none, s') => .exc (.busError va) s'

/-- `MemRead(va, n)` (R78). -/
def memRead (va : Word) (w : Width) (s : State) : Access Word := readVia .data va w s

/-- `MemWrite(va, n, v)` (R78). -/
def memWrite (va : Word) (w : Width) (v : Word) (s : State) : Access Unit :=
  if misaligned va w then .exc (.alignment va) s
  else
    match translate .data true va s with
    | .error c => .exc c s
    | .ok pa =>
      match physWrite pa w v s with
      | (true, s') => .ok () s'
      | (false, s') => .exc (.busError va) s'

/-! ### Exceptions -/

/-- The code of an exception kind (60_exceptions.md R270). -/
def ExcKind.code : ExcKind → Nat
  | .none => 0
  | .reset => 1
  | .busError => 2
  | .dataPageFault => 3
  | .insnPageFault => 4
  | .tick => 5
  | .alignment => 6
  | .illegal => 7
  | .external => 8
  | .dtlbMiss => 9
  | .itlbMiss => 10
  | .range => 11
  | .syscall => 12
  | .floatingPoint => 13
  | .trap => 14

/-- The vector of a kind: code * 0x100, whatever SR.EPH holds (R270, R298). -/
def ExcKind.vector (k : ExcKind) : Word := BitVec.ofNat 32 (k.code * 0x100)

/-- The kind of a cause. -/
def Cause.kind : Cause → ExcKind
  | .busError _ => .busError
  | .dataPageFault _ => .dataPageFault
  | .insnPageFault _ => .insnPageFault
  | .tick => .tick
  | .alignment _ => .alignment
  | .illegal => .illegal
  | .external => .external
  | .dtlbMiss _ => .dtlbMiss
  | .itlbMiss _ => .itlbMiss
  | .syscall => .syscall
  | .trap => .trap

/-- The faulting address of a cause whose kind carries one (R270, R273). -/
def Cause.address : Cause → Option Word
  | .busError va => some va
  | .dataPageFault va => some va
  | .insnPageFault va => some va
  | .alignment va => some va
  | .dtlbMiss va => some va
  | .itlbMiss va => some va
  | .tick => none
  | .illegal => none
  | .external => none
  | .syscall => none
  | .trap => none

/-- `Dispatch(K, addr, savedPC)` (R271): ESR0 takes SR, with DSX in a delay slot; SR becomes FO|SM; EPCR0 takes the saved
pc, less 4 in a delay slot; pc goes to the vector; EEAR0 takes the address of a kind that carries one; DF is cleared. A
dispatch also ends the Run call under way (R301). -/
def dispatch (c : Cause) (savedPC : Word) (s : State) : State :=
  { s with
    esr0 := if s.df then s.sr ||| srDSX else s.sr
    sr := srFO ||| srSM
    epcr0 := if s.df then savedPC - 4#32 else savedPC
    pc := c.kind.vector
    eear0 := c.address.getD s.eear0
    df := false
    run := .returned .stop }

/-- The return from an exception (40_fetch_and_sequencing.md R139): pc takes EPCR0, SR takes ESR0 with FO forced, DF is
cleared; EPCR0, EEAR0, ESR0 and DNPC keep their values (45_system.md R254). -/
def returnFromException (s : State) : State :=
  { s with
    pc := s.epcr0
    sr := s.esr0 ||| srFO
    df := false }

/-! ### Sequencing -/

/-- Outcome `Next` (R136): after a delay-slot instruction to DNPC, else on to pc + 4. -/
def State.seqNext (s : State) : State :=
  { s with
    pc := if s.df then s.dnpc else s.pc + 4#32
    df := false }

/-- Outcome `Jump(t)` with DF = 0 (R137). -/
def State.seqJump (s : State) (t : Word) : State :=
  { s with
    pc := s.pc + 4#32
    dnpc := t
    df := true }

/-- The outcome of an instruction's meaning. -/
abbrev Result := Host.Outcome State Fault Refusal

/-- The completion of an instruction that writes one register and goes on (R135). -/
def writeBack (d : Reg) (v : Word) (s : State) : Result := .next (s.setReg d v).seqNext

/-- The completion of an instruction that goes on (R135). -/
def goOn (s : State) : Result := .next s.seqNext

/-- An instruction whose execution raises an exception: its own address is the saved pc (60_exceptions.md R272 (a)). -/
def raise (c : Cause) (s : State) : Result := .next (dispatch c s.pc s)

/-- A taken transfer to `t` that writes nothing (43_control.md); in a delay slot it is refused. -/
def jumpTo (t : Word) (s : State) : Result :=
  if s.df then .refused .transferInDelaySlot else .next (s.seqJump t)

/-- A taken transfer to `t` that links: r9 takes pc + 8, the target being read before (43_control.md R211, R215). -/
def jumpAndLink (t : Word) (s : State) : Result :=
  if s.df then .refused .transferInDelaySlot
  else .next ((s.setReg linkReg (s.pc + 8#32)).seqJump t)

/-- A conditional branch: taken to `t` or not, refused in a delay slot either way (R140, 43_control.md). -/
def branchIf (taken : Bool) (t : Word) (s : State) : Result :=
  if s.df then .refused .transferInDelaySlot
  else if taken then .next (s.seqJump t) else goOn s

/-- A load: the value of the access, extended, into rD; an exception of the access is raised (44_load_store.md). -/
def loadWith (w : Width) (extend : Word → Word) (d a : Reg) (i : BitVec 16) (s : State) : Result :=
  match memRead (s.effectiveAddress a i) w s with
  | .ok v s' => writeBack d (extend v) s'
  | .exc c s' => raise c s'

/-- A store of rB; an exception of the access is raised (44_load_store.md). -/
def storeWith (w : Width) (a b : Reg) (i : BitVec 16) (s : State) : Result :=
  match memWrite (s.effectiveAddress a i) w (s.reg b) s with
  | .ok _ s' => goOn s'
  | .exc c s' => raise c s'

/-- A compare: F tells whether the condition holds (42_compare.md). -/
def compareWith (c : Condition) (x y : Word) (s : State) : Result := goOn (s.setFlag (c.test x y))

/-- An immediate shift or rotate: amounts of 32 or more are refused (41_alu.md R156 to R159). -/
def shiftImmediate (f : Word → Nat → Word) (d a : Reg) (l : Nat) (s : State) : Result :=
  if 32 ≤ l then .refused .shiftAmountAbove31 else writeBack d (f (s.reg a) l) s

/-- Whether `l.mfspr`, `l.mtspr` and `l.rfe` are refused in the mode the machine is in (60_exceptions.md R296). -/
def State.systemDenied (s : State) : Bool := !s.sm && s.cfg.userSystemAccess == .refuse

end Sys2Proof.Machine
end

