-- ==== Sys2Proof/Machine/Alu.lean ====
section
/-! DEFINITION. The ALU instructions (41_alu.md R150 to R180): each writes rD and goes on; none writes a flag or raises an exception. -/

namespace Sys2Proof.Machine

/-- `l.movhi rD,K` (R150): K in the upper half, zeros below. -/
def execMovhi (d : Reg) (k : BitVec 16) (s : State) : Result :=
  writeBack d (k ++ 0#16) s

/-- `l.addi rD,rA,I` (R151): modulo 2^32, no flag. -/
def execAddi (d a : Reg) (i : BitVec 16) (s : State) : Result :=
  writeBack d (s.reg a + sext16 i) s

/-- `l.andi rD,rA,K` (R152). -/
def execAndi (d a : Reg) (k : BitVec 16) (s : State) : Result :=
  writeBack d (s.reg a &&& zext16 k) s

/-- `l.ori rD,rA,K` (R153). -/
def execOri (d a : Reg) (k : BitVec 16) (s : State) : Result :=
  writeBack d (s.reg a ||| zext16 k) s

/-- `l.xori rD,rA,I` (R154): the immediate is sign-extended. -/
def execXori (d a : Reg) (i : BitVec 16) (s : State) : Result :=
  writeBack d (s.reg a ^^^ sext16 i) s

/-- `l.muli rD,rA,I` (R155). -/
def execMuli (d a : Reg) (i : BitVec 16) (s : State) : Result :=
  writeBack d (mulSigned (s.reg a) (sext16 i)) s

/-- `l.slli rD,rA,L` (R156). -/
def execSlli (d a : Reg) (l : Nat) (s : State) : Result :=
  shiftImmediate (fun v n => v <<< n) d a l s

/-- `l.srli rD,rA,L` (R157). -/
def execSrli (d a : Reg) (l : Nat) (s : State) : Result :=
  shiftImmediate (fun v n => v >>> n) d a l s

/-- `l.srai rD,rA,L` (R158). -/
def execSrai (d a : Reg) (l : Nat) (s : State) : Result :=
  shiftImmediate (fun v n => v.sshiftRight n) d a l s

/-- `l.rori rD,rA,L` (R159). -/
def execRori (d a : Reg) (l : Nat) (s : State) : Result :=
  shiftImmediate rotateRight d a l s

/-- `l.add rD,rA,rB` (R160). -/
def execAdd (d a b : Reg) (s : State) : Result :=
  writeBack d (s.reg a + s.reg b) s

/-- `l.sub rD,rA,rB` (R161). -/
def execSub (d a b : Reg) (s : State) : Result :=
  writeBack d (s.reg a - s.reg b) s

/-- `l.and rD,rA,rB` (R162). -/
def execAnd (d a b : Reg) (s : State) : Result :=
  writeBack d (s.reg a &&& s.reg b) s

/-- `l.or rD,rA,rB` (R163). -/
def execOr (d a b : Reg) (s : State) : Result :=
  writeBack d (s.reg a ||| s.reg b) s

/-- `l.xor rD,rA,rB` (R164). -/
def execXor (d a b : Reg) (s : State) : Result :=
  writeBack d (s.reg a ^^^ s.reg b) s

/-- `l.mul rD,rA,rB` (R165). -/
def execMul (d a b : Reg) (s : State) : Result :=
  writeBack d (mulSigned (s.reg a) (s.reg b)) s

/-- `l.mulu rD,rA,rB` (R166). -/
def execMulu (d a b : Reg) (s : State) : Result :=
  writeBack d (mulUnsigned (s.reg a) (s.reg b)) s

/-- `l.div rD,rA,rB` (R167): 0 for a zero divisor, refused for -2^31 by -1. -/
def execDiv (d a b : Reg) (s : State) : Result :=
  if divOverflows (s.reg a) (s.reg b) then .refused .divisionOverflow
  else writeBack d (divSigned (s.reg a) (s.reg b)) s

/-- `l.divu rD,rA,rB` (R168). -/
def execDivu (d a b : Reg) (s : State) : Result :=
  writeBack d (divUnsigned (s.reg a) (s.reg b)) s

/-- `l.sll rD,rA,rB` (R169): only rB[4:0] counts. -/
def execSll (d a b : Reg) (s : State) : Result :=
  writeBack d (s.reg a <<< shiftAmount (s.reg b)) s

/-- `l.srl rD,rA,rB` (R170): only rB[4:0] counts. -/
def execSrl (d a b : Reg) (s : State) : Result :=
  writeBack d (s.reg a >>> shiftAmount (s.reg b)) s

/-- `l.sra rD,rA,rB` (R171): only rB[4:0] counts. -/
def execSra (d a b : Reg) (s : State) : Result :=
  writeBack d ((s.reg a).sshiftRight (shiftAmount (s.reg b))) s

/-- `l.ror rD,rA,rB` (R172): only rB[4:0] counts. -/
def execRor (d a b : Reg) (s : State) : Result :=
  writeBack d (rotateRight (s.reg a) (shiftAmount (s.reg b))) s

/-- `l.exths rD,rA` (R173). -/
def execExths (d a : Reg) (s : State) : Result :=
  writeBack d (sext16 (lowHalf (s.reg a))) s

/-- `l.extbs rD,rA` (R174). -/
def execExtbs (d a : Reg) (s : State) : Result :=
  writeBack d (sext8 (lowByte (s.reg a))) s

/-- `l.exthz rD,rA` (R175). -/
def execExthz (d a : Reg) (s : State) : Result :=
  writeBack d (zext16 (lowHalf (s.reg a))) s

/-- `l.extbz rD,rA` (R176). -/
def execExtbz (d a : Reg) (s : State) : Result :=
  writeBack d (zext8 (lowByte (s.reg a))) s

/-- `l.cmov rD,rA,rB` (R177): by F, which it leaves. -/
def execCmov (d a b : Reg) (s : State) : Result :=
  writeBack d (if s.flag then s.reg a else s.reg b) s

/-- `l.ff1 rD,rA` (R178). -/
def execFf1 (d a : Reg) (s : State) : Result :=
  writeBack d (findFirstOne (s.reg a)) s

/-- `l.fl1 rD,rA` (R179). -/
def execFl1 (d a : Reg) (s : State) : Result :=
  writeBack d (findLastOne (s.reg a)) s

end Sys2Proof.Machine
end

