-- ==== Sys2Proof/Machine/Compare.lean ====
section
/-! DEFINITION. The compares (42_compare.md R190 to R209): each writes F and nothing else, and goes on. Immediates are sign-extended
for every condition, the unsigned ones too. -/

namespace Sys2Proof.Machine

/-- `l.sfeq rA,rB` (R190). -/
def execSfeq (a b : Reg) (s : State) : Result :=
  compareWith .eq (s.reg a) (s.reg b) s

/-- `l.sfne rA,rB` (R191). -/
def execSfne (a b : Reg) (s : State) : Result :=
  compareWith .ne (s.reg a) (s.reg b) s

/-- `l.sfgtu rA,rB` (R192). -/
def execSfgtu (a b : Reg) (s : State) : Result :=
  compareWith .gtu (s.reg a) (s.reg b) s

/-- `l.sfgeu rA,rB` (R193). -/
def execSfgeu (a b : Reg) (s : State) : Result :=
  compareWith .geu (s.reg a) (s.reg b) s

/-- `l.sfltu rA,rB` (R194). -/
def execSfltu (a b : Reg) (s : State) : Result :=
  compareWith .ltu (s.reg a) (s.reg b) s

/-- `l.sfleu rA,rB` (R195). -/
def execSfleu (a b : Reg) (s : State) : Result :=
  compareWith .leu (s.reg a) (s.reg b) s

/-- `l.sfgts rA,rB` (R196). -/
def execSfgts (a b : Reg) (s : State) : Result :=
  compareWith .gts (s.reg a) (s.reg b) s

/-- `l.sfges rA,rB` (R197). -/
def execSfges (a b : Reg) (s : State) : Result :=
  compareWith .ges (s.reg a) (s.reg b) s

/-- `l.sflts rA,rB` (R198). -/
def execSflts (a b : Reg) (s : State) : Result :=
  compareWith .lts (s.reg a) (s.reg b) s

/-- `l.sfles rA,rB` (R199). -/
def execSfles (a b : Reg) (s : State) : Result :=
  compareWith .les (s.reg a) (s.reg b) s

/-- `l.sfeqi rA,I` (R200). -/
def execSfeqi (a : Reg) (i : BitVec 16) (s : State) : Result :=
  compareWith .eq (s.reg a) (sext16 i) s

/-- `l.sfnei rA,I` (R201). -/
def execSfnei (a : Reg) (i : BitVec 16) (s : State) : Result :=
  compareWith .ne (s.reg a) (sext16 i) s

/-- `l.sfgtui rA,I` (R202). -/
def execSfgtui (a : Reg) (i : BitVec 16) (s : State) : Result :=
  compareWith .gtu (s.reg a) (sext16 i) s

/-- `l.sfgeui rA,I` (R203). -/
def execSfgeui (a : Reg) (i : BitVec 16) (s : State) : Result :=
  compareWith .geu (s.reg a) (sext16 i) s

/-- `l.sfltui rA,I` (R204). -/
def execSfltui (a : Reg) (i : BitVec 16) (s : State) : Result :=
  compareWith .ltu (s.reg a) (sext16 i) s

/-- `l.sfleui rA,I` (R205). -/
def execSfleui (a : Reg) (i : BitVec 16) (s : State) : Result :=
  compareWith .leu (s.reg a) (sext16 i) s

/-- `l.sfgtsi rA,I` (R206). -/
def execSfgtsi (a : Reg) (i : BitVec 16) (s : State) : Result :=
  compareWith .gts (s.reg a) (sext16 i) s

/-- `l.sfgesi rA,I` (R207). -/
def execSfgesi (a : Reg) (i : BitVec 16) (s : State) : Result :=
  compareWith .ges (s.reg a) (sext16 i) s

/-- `l.sfltsi rA,I` (R208). -/
def execSfltsi (a : Reg) (i : BitVec 16) (s : State) : Result :=
  compareWith .lts (s.reg a) (sext16 i) s

/-- `l.sflesi rA,I` (R209). -/
def execSflesi (a : Reg) (i : BitVec 16) (s : State) : Result :=
  compareWith .les (s.reg a) (sext16 i) s

end Sys2Proof.Machine
end

