-- ==== Sys2Proof/Machine/Control.lean ====
section
/-! DEFINITION. The control transfers and `l.nop` (43_control.md R210 to R218). -/

namespace Sys2Proof.Machine

/-- `l.j N` (R210). -/
def execJ (n : BitVec 26) (s : State) : Result :=
  jumpTo (s.jumpTarget n) s

/-- `l.jal N` (R211). -/
def execJal (n : BitVec 26) (s : State) : Result :=
  jumpAndLink (s.jumpTarget n) s

/-- `l.bnf N` (R212): taken when F is 0. -/
def execBnf (n : BitVec 26) (s : State) : Result :=
  branchIf (!s.flag) (s.jumpTarget n) s

/-- `l.bf N` (R213): taken when F is 1. -/
def execBf (n : BitVec 26) (s : State) : Result :=
  branchIf s.flag (s.jumpTarget n) s

/-- `l.jr rB` (R214). -/
def execJr (b : Reg) (s : State) : Result :=
  jumpTo (s.reg b) s

/-- `l.jalr rB` (R215): rB is read before r9 is written. -/
def execJalr (b : Reg) (s : State) : Result :=
  jumpAndLink (s.reg b) s

/-- `l.nop K` (R216): K is ignored. -/
def execNop (_k : BitVec 16) (s : State) : Result :=
  goOn s

end Sys2Proof.Machine
end

