-- ==== Sys2Proof/Machine/LoadStore.lean ====
section
/-! DEFINITION. The loads and stores (44_load_store.md R230 to R241). -/

namespace Sys2Proof.Machine

/-- `l.lwz rD,I(rA)` (R230). -/
def execLwz (d a : Reg) (i : BitVec 16) (s : State) : Result :=
  loadWith .word id d a i s

/-- `l.lws rD,I(rA)` (R231). -/
def execLws (d a : Reg) (i : BitVec 16) (s : State) : Result :=
  loadWith .word id d a i s

/-- `l.lbz rD,I(rA)` (R232). -/
def execLbz (d a : Reg) (i : BitVec 16) (s : State) : Result :=
  loadWith .byte (fun v => zext8 (lowByte v)) d a i s

/-- `l.lbs rD,I(rA)` (R233). -/
def execLbs (d a : Reg) (i : BitVec 16) (s : State) : Result :=
  loadWith .byte (fun v => sext8 (lowByte v)) d a i s

/-- `l.lhz rD,I(rA)` (R234). -/
def execLhz (d a : Reg) (i : BitVec 16) (s : State) : Result :=
  loadWith .half (fun v => zext16 (lowHalf v)) d a i s

/-- `l.lhs rD,I(rA)` (R235). -/
def execLhs (d a : Reg) (i : BitVec 16) (s : State) : Result :=
  loadWith .half (fun v => sext16 (lowHalf v)) d a i s

/-- `l.sw I(rA),rB` (R236). -/
def execSw (a b : Reg) (i : BitVec 16) (s : State) : Result :=
  storeWith .word a b i s

/-- `l.sb I(rA),rB` (R237). -/
def execSb (a b : Reg) (i : BitVec 16) (s : State) : Result :=
  storeWith .byte a b i s

/-- `l.sh I(rA),rB` (R238). -/
def execSh (a b : Reg) (i : BitVec 16) (s : State) : Result :=
  storeWith .half a b i s

end Sys2Proof.Machine
end

