-- ==== Sys2Proof/Machine/Spr.lean ====
section
/-! DEFINITION. The special registers: the address map (10_state.md R45 to R48) and the read and write primitives of
45_system.md R258 and R259, which `l.mfspr`, `l.mtspr` and the host share. -/

namespace Sys2Proof.Machine

/-- The register of an MMU's group at an index (R46): the control word at 0, the match registers from 0x200, the translate
registers from 0x280, 128 sets of each (R39, R43). -/
def mmuSpr (side : Side) (index : Nat) : Spr :=
  if index = 0 then .mmucr side
  else if h : 0x200 ≤ index ∧ index < 0x280 then .tlbmr side ⟨index - 0x200, by omega⟩
  else if h : 0x280 ≤ index ∧ index < 0x300 then .tlbtr side ⟨index - 0x280, by omega⟩
  else .unnamed

/-- The register of group 0 at an index (R46). -/
def systemSpr : Nat → Spr
  | 0 => .vr
  | 1 => .upr
  | 2 => .cpucfgr
  | 3 => .dmmucfgr
  | 4 => .immucfgr
  | 17 => .sr
  | 32 => .epcr0
  | 48 => .eear0
  | 64 => .esr0
  | _ => .unnamed

/-- The register an SPR address names: group in bits 15:11, index in bits 10:0 (R45, R46). -/
def decodeSpr (a : BitVec 16) : Spr :=
  let index := (a.extractLsb' 0 11).toNat
  match (a.extractLsb' 11 5).toNat with
  | 0 => systemSpr index
  | 1 => mmuSpr .data index
  | 2 => mmuSpr .insn index
  | 9 => if index = 0 then .picmr else if index = 2 then .picsr else .unnamed
  | 10 => if index = 0 then .ttmr else if index = 1 then .ttcr else .unnamed
  | _ => .unnamed

/-- The state after one value is drawn (00_scope.md R10). -/
def State.drawn (s : State) : State := { s with draws := s.draws + 1 }

/-- The value drawn next: free (notes/assumptions/3.md). -/
def State.draw (s : State) : Word := Config.drawn s.draws

/-- A stored image of SR as a read returns it: the bits without function are drawn (10_state.md R28). -/
def readSrImage (stored drawn : Word) : Word := (stored &&& srFunctional) ||| (drawn &&& ~~~srFunctional)

/-- `SPR(a)` (R258): the value read, and the state after it, in which a value may have been drawn. -/
def sprRead (r : Spr) (s : State) : Word × State :=
  match r with
  | .vr => (s.cfg.vr, s)
  | .upr => (s.cfg.upr, s)
  | .cpucfgr => (s.cfg.cpucfgr, s)
  | .dmmucfgr => (s.cfg.dmmucfgr, s)
  | .immucfgr => (s.cfg.immucfgr, s)
  | .sr => (readSrImage s.sr s.draw, s.drawn)
  | .epcr0 => (s.epcr0, s)
  | .eear0 => (s.eear0, s)
  | .esr0 => (readSrImage s.esr0 s.draw, s.drawn)
  | .mmucr side => ((s.mmu side).cr, s)
  | .tlbmr side set => if set.val < 64 then ((s.mmu side).mr[set.val], s) else (s.draw, s.drawn)
  | .tlbtr side set => if set.val < 64 then ((s.mmu side).tr[set.val], s) else (s.draw, s.drawn)
  | .picmr => (s.picmr, s)
  | .picsr => (s.picsr, s)
  | .ttmr => (s.ttmr, s)
  | .ttcr => (s.ttcr, s)
  | .unnamed => (0#32, s)

/-- The state with the MMU of a side replaced. -/
def State.setMmu (s : State) (side : Side) (m : Mmu) : State :=
  match side with
  | .insn => { s with immu := m }
  | .data => { s with dmmu := m }

/-- `SPR(a) <- v` (R259): read-only and unnamed registers ignore the write (10_state.md R47, R48); PICSR stores only when
PICSR_WRITE is `store` (R37); FO is forced in SR (R26). -/
def sprWrite (r : Spr) (v : Word) (s : State) : State :=
  match r with
  | .vr => s
  | .upr => s
  | .cpucfgr => s
  | .dmmucfgr => s
  | .immucfgr => s
  | .sr => s.setSr v
  | .epcr0 => { s with epcr0 := v }
  | .eear0 => { s with eear0 := v }
  | .esr0 => { s with esr0 := v }
  | .mmucr side => s.setMmu side { s.mmu side with cr := v }
  | .tlbmr side set => s.setMmu side { s.mmu side with mr := (s.mmu side).mr.set set.val v }
  | .tlbtr side set => s.setMmu side { s.mmu side with tr := (s.mmu side).tr.set set.val v }
  | .picmr => { s with picmr := v }
  | .picsr =>
    match s.cfg.picsrWrite with
    | .store => { s with picsr := v }
    | .ignore => s
  | .ttmr => { s with ttmr := v }
  | .ttcr => { s with ttcr := v }
  | .unnamed => s

end Sys2Proof.Machine
end

