-- ==== Sys2Proof/Machine/System.lean ====
section
/-! DEFINITION. The system instructions (45_system.md R250 to R257). -/

namespace Sys2Proof.Machine

/-- `l.mfspr rD,rA,K` (R250). -/
def execMfspr (d a : Reg) (k : BitVec 16) (s : State) : Result :=
  if s.systemDenied then .refused .userMfspr
  else writeBack d (sprRead (decodeSpr (s.sprAddress a k)) s).1 (sprRead (decodeSpr (s.sprAddress a k)) s).2

/-- `l.mtspr rA,rB,K` (R251). -/
def execMtspr (a b : Reg) (k : BitVec 16) (s : State) : Result :=
  if s.systemDenied then .refused .userMtspr
  else goOn (sprWrite (decodeSpr (s.sprAddress a k)) (s.reg b) s)

/-- `l.sys K` (R252): the saved pc is the address after it; in a delay slot it is refused. K is ignored. -/
def execSys (_k : BitVec 16) (s : State) : Result :=
  if s.df then .refused .sysInDelaySlot else .next (dispatch .syscall (s.pc + 4#32) s)

/-- `l.trap K` (R253): unconditional; the saved pc is its own address. K is ignored. -/
def execTrap (_k : BitVec 16) (s : State) : Result :=
  raise .trap s

/-- `l.rfe` (R254). -/
def execRfe (s : State) : Result :=
  if s.systemDenied then .refused .userRfe
  else if s.df then .refused .rfeInDelaySlot
  else .next (returnFromException s)

/-- `l.msync` (R255): memory is sequentially consistent already, so it only goes on. -/
def execMsync (s : State) : Result :=
  goOn s

/-- `l.psync` (R256): there is no pipeline to flush, so it only goes on. -/
def execPsync (s : State) : Result :=
  goOn s

/-- `l.csync` (R257): every write is complete already, so it only goes on. -/
def execCsync (s : State) : Result :=
  goOn s

end Sys2Proof.Machine
end

