-- ==== Sys2Proof/Machine/Unsourced.lean ====
section
/-! DEFINITION. The rows of the opcode table whose presence in the hardware no source shows (30_encoding.md R113): the model refuses each
by its own name, neither executing it nor raising illegal instruction (notes/assumptions/5.md). -/

namespace Sys2Proof.Machine

/-- The row `l.addc__refused`. -/
def execAddc (_s : State) : Result := .refused (.presenceUnknown .addc)

/-- The row `l.muld__refused`. -/
def execMuld (_s : State) : Result := .refused (.presenceUnknown .muld)

/-- The row `l.muldu__refused`. -/
def execMuldu (_s : State) : Result := .refused (.presenceUnknown .muldu)

/-- The row `l.extws__refused`. -/
def execExtws (_s : State) : Result := .refused (.presenceUnknown .extws)

/-- The row `l.extwz__refused`. -/
def execExtwz (_s : State) : Result := .refused (.presenceUnknown .extwz)

/-- The row `l.macrc__refused`. -/
def execMacrc (_s : State) : Result := .refused (.presenceUnknown .macrc)

/-- The row `l.adrp__refused`. -/
def execAdrp (_s : State) : Result := .refused (.presenceUnknown .adrp)

/-- The row `lv.___refused`. -/
def execLv (_s : State) : Result := .refused (.presenceUnknown .vector)

/-- The row `l.maci__refused`. -/
def execMaci (_s : State) : Result := .refused (.presenceUnknown .maci)

/-- The row `l.lf__refused`. -/
def execLf (_s : State) : Result := .refused (.presenceUnknown .lf)

/-- The row `l.lwa__refused`. -/
def execLwa (_s : State) : Result := .refused (.presenceUnknown .lwa)

/-- The row `l.cust1__refused`. -/
def execCust1 (_s : State) : Result := .refused (.presenceUnknown .cust1)

/-- The row `l.cust2__refused`. -/
def execCust2 (_s : State) : Result := .refused (.presenceUnknown .cust2)

/-- The row `l.cust3__refused`. -/
def execCust3 (_s : State) : Result := .refused (.presenceUnknown .cust3)

/-- The row `l.cust4__refused`. -/
def execCust4 (_s : State) : Result := .refused (.presenceUnknown .cust4)

/-- The row `l.ld__refused`. -/
def execLd (_s : State) : Result := .refused (.presenceUnknown .ld)

/-- The row `l.addic__refused`. -/
def execAddic (_s : State) : Result := .refused (.presenceUnknown .addic)

/-- The row `l.mac_l.msb_l.macu_l.msbu__refused`. -/
def execMac (_s : State) : Result := .refused (.presenceUnknown .mac)

/-- The row `lf.___refused`. -/
def execLfp (_s : State) : Result := .refused (.presenceUnknown .floatingPoint)

/-- The row `l.swa__refused`. -/
def execSwa (_s : State) : Result := .refused (.presenceUnknown .swa)

/-- The row `l.sd__refused`. -/
def execSd (_s : State) : Result := .refused (.presenceUnknown .sd)

/-- The row `l.cust5__refused`. -/
def execCust5 (_s : State) : Result := .refused (.presenceUnknown .cust5)

/-- The row `l.cust6__refused`. -/
def execCust6 (_s : State) : Result := .refused (.presenceUnknown .cust6)

/-- The row `l.cust7__refused`. -/
def execCust7 (_s : State) : Result := .refused (.presenceUnknown .cust7)

/-- The row `l.cust8__refused`. -/
def execCust8 (_s : State) : Result := .refused (.presenceUnknown .cust8)

end Sys2Proof.Machine
end

