-- ==== Sys2Proof/Machine/Dispatch.lean ====
section
/-! DEFINITION. The execution of a decoded instruction: one arm per constructor, each one call of its meaning. -/

namespace Sys2Proof.Machine

/-- What an instruction at the pc of a state does: its effect and its sequencing (40_fetch_and_sequencing.md R130, R135). -/
def exec (i : Instr) (s : State) : Host.Outcome State Fault Refusal :=
  match i with
  | .movhi d k => Sys2Proof.Machine.execMovhi d k s
  | .addi d a n => Sys2Proof.Machine.execAddi d a n s
  | .andi d a k => Sys2Proof.Machine.execAndi d a k s
  | .ori d a k => Sys2Proof.Machine.execOri d a k s
  | .xori d a n => Sys2Proof.Machine.execXori d a n s
  | .muli d a n => Sys2Proof.Machine.execMuli d a n s
  | .slli d a l => Sys2Proof.Machine.execSlli d a l s
  | .srli d a l => Sys2Proof.Machine.execSrli d a l s
  | .srai d a l => Sys2Proof.Machine.execSrai d a l s
  | .rori d a l => Sys2Proof.Machine.execRori d a l s
  | .add d a b => Sys2Proof.Machine.execAdd d a b s
  | .sub d a b => Sys2Proof.Machine.execSub d a b s
  | .and d a b => Sys2Proof.Machine.execAnd d a b s
  | .or d a b => Sys2Proof.Machine.execOr d a b s
  | .xor d a b => Sys2Proof.Machine.execXor d a b s
  | .mul d a b => Sys2Proof.Machine.execMul d a b s
  | .mulu d a b => Sys2Proof.Machine.execMulu d a b s
  | .div d a b => Sys2Proof.Machine.execDiv d a b s
  | .divu d a b => Sys2Proof.Machine.execDivu d a b s
  | .sll d a b => Sys2Proof.Machine.execSll d a b s
  | .srl d a b => Sys2Proof.Machine.execSrl d a b s
  | .sra d a b => Sys2Proof.Machine.execSra d a b s
  | .ror d a b => Sys2Proof.Machine.execRor d a b s
  | .exths d a => Sys2Proof.Machine.execExths d a s
  | .extbs d a => Sys2Proof.Machine.execExtbs d a s
  | .exthz d a => Sys2Proof.Machine.execExthz d a s
  | .extbz d a => Sys2Proof.Machine.execExtbz d a s
  | .cmov d a b => Sys2Proof.Machine.execCmov d a b s
  | .ff1 d a => Sys2Proof.Machine.execFf1 d a s
  | .fl1 d a => Sys2Proof.Machine.execFl1 d a s
  | .sfeq a b => Sys2Proof.Machine.execSfeq a b s
  | .sfne a b => Sys2Proof.Machine.execSfne a b s
  | .sfgtu a b => Sys2Proof.Machine.execSfgtu a b s
  | .sfgeu a b => Sys2Proof.Machine.execSfgeu a b s
  | .sfltu a b => Sys2Proof.Machine.execSfltu a b s
  | .sfleu a b => Sys2Proof.Machine.execSfleu a b s
  | .sfgts a b => Sys2Proof.Machine.execSfgts a b s
  | .sfges a b => Sys2Proof.Machine.execSfges a b s
  | .sflts a b => Sys2Proof.Machine.execSflts a b s
  | .sfles a b => Sys2Proof.Machine.execSfles a b s
  | .sfeqi a n => Sys2Proof.Machine.execSfeqi a n s
  | .sfnei a n => Sys2Proof.Machine.execSfnei a n s
  | .sfgtui a n => Sys2Proof.Machine.execSfgtui a n s
  | .sfgeui a n => Sys2Proof.Machine.execSfgeui a n s
  | .sfltui a n => Sys2Proof.Machine.execSfltui a n s
  | .sfleui a n => Sys2Proof.Machine.execSfleui a n s
  | .sfgtsi a n => Sys2Proof.Machine.execSfgtsi a n s
  | .sfgesi a n => Sys2Proof.Machine.execSfgesi a n s
  | .sfltsi a n => Sys2Proof.Machine.execSfltsi a n s
  | .sflesi a n => Sys2Proof.Machine.execSflesi a n s
  | .j n => Sys2Proof.Machine.execJ n s
  | .jal n => Sys2Proof.Machine.execJal n s
  | .bnf n => Sys2Proof.Machine.execBnf n s
  | .bf n => Sys2Proof.Machine.execBf n s
  | .jr b => Sys2Proof.Machine.execJr b s
  | .jalr b => Sys2Proof.Machine.execJalr b s
  | .nop k => Sys2Proof.Machine.execNop k s
  | .lwz d a n => Sys2Proof.Machine.execLwz d a n s
  | .lws d a n => Sys2Proof.Machine.execLws d a n s
  | .lbz d a n => Sys2Proof.Machine.execLbz d a n s
  | .lbs d a n => Sys2Proof.Machine.execLbs d a n s
  | .lhz d a n => Sys2Proof.Machine.execLhz d a n s
  | .lhs d a n => Sys2Proof.Machine.execLhs d a n s
  | .sw a b n => Sys2Proof.Machine.execSw a b n s
  | .sb a b n => Sys2Proof.Machine.execSb a b n s
  | .sh a b n => Sys2Proof.Machine.execSh a b n s
  | .mfspr d a k => Sys2Proof.Machine.execMfspr d a k s
  | .mtspr a b k => Sys2Proof.Machine.execMtspr a b k s
  | .sys k => Sys2Proof.Machine.execSys k s
  | .trap k => Sys2Proof.Machine.execTrap k s
  | .rfe => Sys2Proof.Machine.execRfe s
  | .msync => Sys2Proof.Machine.execMsync s
  | .psync => Sys2Proof.Machine.execPsync s
  | .csync => Sys2Proof.Machine.execCsync s
  | .addc => Sys2Proof.Machine.execAddc s
  | .muld => Sys2Proof.Machine.execMuld s
  | .muldu => Sys2Proof.Machine.execMuldu s
  | .extws => Sys2Proof.Machine.execExtws s
  | .extwz => Sys2Proof.Machine.execExtwz s
  | .macrc => Sys2Proof.Machine.execMacrc s
  | .adrp => Sys2Proof.Machine.execAdrp s
  | .lv => Sys2Proof.Machine.execLv s
  | .maci => Sys2Proof.Machine.execMaci s
  | .lf => Sys2Proof.Machine.execLf s
  | .lwa => Sys2Proof.Machine.execLwa s
  | .cust1 => Sys2Proof.Machine.execCust1 s
  | .cust2 => Sys2Proof.Machine.execCust2 s
  | .cust3 => Sys2Proof.Machine.execCust3 s
  | .cust4 => Sys2Proof.Machine.execCust4 s
  | .ld => Sys2Proof.Machine.execLd s
  | .addic => Sys2Proof.Machine.execAddic s
  | .mac => Sys2Proof.Machine.execMac s
  | .lfp => Sys2Proof.Machine.execLfp s
  | .swa => Sys2Proof.Machine.execSwa s
  | .sd => Sys2Proof.Machine.execSd s
  | .cust5 => Sys2Proof.Machine.execCust5 s
  | .cust6 => Sys2Proof.Machine.execCust6 s
  | .cust7 => Sys2Proof.Machine.execCust7 s
  | .cust8 => Sys2Proof.Machine.execCust8 s

end Sys2Proof.Machine
end

