-- ==== Sys2Proof/Machine/HostCalls.lean ====
section
/-! DEFINITION. The host interface (60_exceptions.md R290, R300, R301; 70_reset_and_hazards.md R320 to R323, R336). -/

namespace Sys2Proof.Machine

/-- The interrupt word the bus presents when the peripheral, the only source, asserts its line or not: bit UART_IRQ_BIT,
every other bit 0 (R293). -/
def interruptWord (cfg : Config) (asserted : Bool) : Word :=
  if asserted then 1#32 <<< cfg.uartIrqBit.val else 0#32

/-- `Reset()` (R320, R321): every architectural element of R320 at its reset value. The parameters, RAM, the peripheral and
the rest of the model's own bookkeeping are kept (R323, notes/assumptions/18.md). -/
def hostReset (s : State) : State :=
  { s with
    gpr := State.reset.gpr
    pc := State.reset.pc
    df := State.reset.df
    dnpc := State.reset.dnpc
    sr := State.reset.sr
    epcr0 := State.reset.epcr0
    eear0 := State.reset.eear0
    esr0 := State.reset.esr0
    ttmr := State.reset.ttmr
    ttcr := State.reset.ttcr
    picmr := State.reset.picmr
    picsr := State.reset.picsr
    dmmu := State.reset.dmmu
    immu := State.reset.immu
    halted := false }

/-- The rising edges of permitted lines (R290). -/
def State.edges (s : State) (w : Word) : Word := w &&& ~~~s.picsr &&& s.picmr

/-- `Sample(W)` (R290): PICSR takes the word whether or not an edge is dispatched. -/
def sampleInterrupts (w : Word) (s : State) : State :=
  if s.edges w ≠ 0#32 ∧ s.iee = true then dispatch .external s.pc { s with picsr := w }
  else { s with picsr := w }

/-- The start of `Run(n)` after a sample that dispatched nothing: a budget of `n` cycles (R290, R301); a budget of none
returns at once (notes/assumptions/19.md). -/
def budgetStatus (n : Nat) : RunStatus := if n = 0 then .returned .continue else .running n

/-- The start of `Run(n)`: the sample of the word the bus presents (R293), and, when it dispatched nothing, the budget (R278,
R290). -/
def startRun (n : Nat) (asserted : Bool) (s : State) : State :=
  let w := interruptWord s.cfg asserted
  if s.edges w ≠ 0#32 ∧ s.iee = true then sampleInterrupts w s
  else { sampleInterrupts w s with run := budgetStatus n }

/-- The load of an image at a physical offset (70_reset_and_hazards.md R322), or a failure that is reported
(notes/assumptions/13.md). DESIGN CHOICE, unsafe: the bytes go to rising addresses in their order in the image, so that of
each four the first is the most significant byte of the word (20_memory.md R63); R322 re-orders them into that convention
and no file of the spec states the image's own byte order (notes/assumptions/26.md). -/
def loadImage (offset : Nat) (bytes : List Byte) (s : State) : Result :=
  if bytes.length % 4 ≠ 0 then .fault .imageLengthNotWords
  else if s.cfg.maxRamAddress.toNat + 1 < offset + bytes.length then .fault .imageOverflowsRam
  else .next { s with mem := s.mem.writeBytes offset bytes }

/-- What one host call does (60_exceptions.md R300). DF and DNPC are left by SetPC (70_reset_and_hazards.md R336). The
keypress and the drain act on the peripheral alone, so they are events (notes/assumptions/21.md). -/
def hostCall (c : HostCall) (s : State) : Result :=
  match c with
  | .reset => .next (hostReset s)
  | .run n asserted => .next (startRun n asserted s)
  | .setReg r v => .next (s.setReg r v)
  | .setPc v => .next { s with pc := v }
  | .setSpr a v => .next (sprWrite (decodeSpr a) v s)
  | .loadImage offset bytes => loadImage offset bytes s
  | .keypress b => .next { s with device := .keypress b :: s.device }
  | .drainOutput => .next { s with device := .drain :: s.device }

/-- `Reg(i)` (R300). -/
def hostReg (r : Reg) (s : State) : Word := s.reg r

/-- `PC()` (R300). -/
def hostPc (s : State) : Word := s.pc

/-- `Flag()` (R300). -/
def hostFlag (s : State) : Bool := s.flag

/-- `SpReg(a)` (R300, 45_system.md R258): the value, and the state after it, in which a value may have been drawn. -/
def hostSpReg (a : BitVec 16) (s : State) : Word × State := sprRead (decodeSpr a) s

end Sys2Proof.Machine
end

