-- ==== Sys2Proof/Machine/Cycle.lean ====
section
/-! DEFINITION. One cycle of the core (40_fetch_and_sequencing.md R130): the tick phase, the fetch, the halt check, the decoding
and the execution; and one turn of the machine, a cycle or a call of the host. -/

namespace Sys2Proof.Machine

/-! ### The tick timer (10_state.md R34, 60_exceptions.md R286 to R289) -/

/-- TTMR.IP, bit 28. -/
def ttmrIP : Word := 0x10000000#32

/-- TTMR.TP, bits 27:0. -/
def tickPeriod (v : Word) : BitVec 28 := v.extractLsb' 0 28

/-- TTMR.M, bits 31:30. -/
def tickMode (v : Word) : BitVec 2 := v.extractLsb' 30 2

/-- A mode is in TICK_ARMED_MODES (R287). -/
def modeArmed (t : TickModes) (m : BitVec 2) : Bool :=
  match m.toNat with
  | 1 => t.m01
  | 2 => t.m10
  | 3 => t.m11
  | _ => false

/-- The timer matches: armed, and the low 28 bits of the count are the period (R287). -/
def State.tickMatches (s : State) : Bool :=
  modeArmed s.cfg.tickArmed (tickMode s.ttmr) && tickPeriod s.ttcr == tickPeriod s.ttmr

/-- The tick interrupt is enabled: TTMR.IE and SR.TEE (R288). -/
def State.tickEnabled (s : State) : Bool := s.ttmr.getLsbD 29 && s.tee

/-- The count of a cycle (R286); the halted mark speaks of the last cycle, so a new one clears it. -/
def countCycle (s : State) : State := { s with ttcr := s.ttcr + 1#32, halted := false }

/-- A match sets IP and touches nothing else: the count runs on (R287, R289). -/
def markTick (s : State) : State := if s.tickMatches then { s with ttmr := s.ttmr ||| ttmrIP } else s

/-- The tick phase of a cycle: the count, then IP on a match. -/
def tickPhase (s : State) : State := markTick (countCycle s)

/-- The cycle's tick phase ends in a dispatch: the match of this cycle, with the interrupt enabled (R288, R289). -/
def tickFires (s : State) : Bool := (countCycle s).tickMatches && (countCycle s).tickEnabled

/-! ### The cycle -/

/-- `Fetch(pc)` (40_fetch_and_sequencing.md R132). -/
def fetch (s : State) : Access Word := readVia .insn s.pc .word s

/-- The halt word was fetched: nothing executes, pc stays, and the run ends (R133, 60_exceptions.md R301). -/
def halt (s : State) : State := { s with halted := true, run := .returned .stop }

/-- Decoding and execution of a fetched word: the halt word first, then an unassigned encoding (30_encoding.md R114, R121;
40_fetch_and_sequencing.md R134). -/
def runWord (w : Word) (s : State) : Result :=
  if s.cfg.haltWord = some w then .next (halt s)
  else
    match decode w with
    | .ok i => exec i s
    | .error _ => raise .illegal s

/-- One cycle (R130). -/
def cycle (s : State) : Result :=
  if tickFires s then raise .tick (tickPhase s)
  else
    match fetch (tickPhase s) with
    | .ok w s' => runWord w s'
    | .exc c s' => raise c s'

/-! ### A turn: a cycle of a Run call, or a call of the host -/

/-- The last cycle of a budget ends the Run call with `continue` (60_exceptions.md R301). -/
def closeRun (s : State) : State :=
  if s.run = .running 0 then { s with run := .returned .continue } else s

/-- The close of a Run call after a cycle that gave a next state. -/
def afterCycle : Result → Result
  | .next s => .next (closeRun s)
  | .fault r => .fault r
  | .refused r => .refused r

/-- The state in which the cycle of this turn runs: one cycle of the budget is used up. -/
def spendBudget (s : State) : State :=
  match s.run with
  | .running (n + 1) => { s with run := .running n }
  | _ => s

/-- A Run call is under way. -/
def State.inRun (s : State) : Bool :=
  match s.run with
  | .running (_ + 1) => true
  | _ => false

/-- One turn (notes/assumptions/10.md): within a Run call a cycle; between two, the host's next call; and with no call
to come the core goes on cycle by cycle. -/
def turn (s : State) : Result :=
  if s.inRun then afterCycle (cycle (spendBudget s))
  else
    match s.calls with
    | c :: rest => hostCall c { s with calls := rest }
    | [] => afterCycle (cycle s)

end Sys2Proof.Machine
end

