-- ==== Sys2Proof/Machine/Step.lean ====
section
/-! DEFINITION. The step of the machine, and the placing of an instruction where the next step fetches. -/

namespace Sys2Proof.Machine

/-- One step: a cycle of the core (40_fetch_and_sequencing.md R130), or a call of the host between Run calls
(60_exceptions.md R300). -/
def step (s : State) : Host.Outcome State Fault Refusal := turn s

/-- The state with an instruction of `nbits` bits stored where the next step fetches: at the physical address of pc, in
big-endian order (20_memory.md R63). A host call that would come before the fetch is dropped. It stands for the load of a
program from outside (notes/assumptions/14.md, notes/assumptions/22.md). -/
def State.withFetchWord (s : State) (nbits w : Nat) : State :=
  let pa := match translate .insn false s.pc s with
    | .ok pa => pa
    | .error _ => s.pc
  { s with
    mem := s.mem.writeBytes pa.toNat (bytesOfWord (BitVec.ofNat 32 (w % 2 ^ nbits)))
    calls := if s.inRun then s.calls else [] }

end Sys2Proof.Machine
end

