-- ==== Sys2Proof/Safety.lean ====
section
/-! DEFINITION. The terms claims are stated in: what an instruction leaves alone, how it completes, what entering an exception
leaves, the classes of instructions, and the invariant of the machine. -/

namespace Sys2Proof.Machine

/-! ### Frames -/

/-- Every byte of memory reads as before. -/
def SameMemory (s t : State) : Prop := ∀ a, t.mem.read a = s.mem.read a

/-- Every byte of memory outside the `n` bytes from `lo` on reads as before. -/
def SameMemoryOutside (lo n : Nat) (s t : State) : Prop :=
  ∀ a, a < lo ∨ lo + n ≤ a → t.mem.read a = s.mem.read a

/-- Every general register is unchanged. -/
def SameRegs (s t : State) : Prop := ∀ r, t.reg r = s.reg r

/-- Every general register but one is unchanged. -/
def SameRegsBut (d : Reg) (s t : State) : Prop := ∀ r, r ≠ d → t.reg r = s.reg r

/-- Every special register but SR is unchanged: the exception registers, the timer, the interrupt controller and both
MMUs with their TLBs. -/
def SameSpecials (s t : State) : Prop :=
  t.epcr0 = s.epcr0 ∧ t.eear0 = s.eear0 ∧ t.esr0 = s.esr0 ∧ t.ttmr = s.ttmr ∧ t.ttcr = s.ttcr ∧
    t.picmr = s.picmr ∧ t.picsr = s.picsr ∧ t.dmmu = s.dmmu ∧ t.immu = s.immu

/-- The parameters, the host's side and the model's bookkeeping are unchanged. -/
def SameOuter (s t : State) : Prop :=
  t.cfg = s.cfg ∧ t.device = s.device ∧ t.draws = s.draws ∧ t.calls = s.calls ∧ t.run = s.run ∧ t.halted = s.halted

/-! ### How an instruction completes -/

/-- Outcome `Next` (40_fetch_and_sequencing.md R136). -/
def GoesOn (s t : State) : Prop :=
  t.pc = (if s.df then s.dnpc else s.pc + 4#32) ∧ t.df = false ∧ t.dnpc = s.dnpc

/-- Outcome `Jump(target)` (R137). -/
def TransfersTo (target : Word) (s t : State) : Prop :=
  t.pc = s.pc + 4#32 ∧ t.df = true ∧ t.dnpc = target

/-- The instruction goes on and changes nothing else. -/
def OnlyGoesOn (s t : State) : Prop :=
  SameRegs s t ∧ t.sr = s.sr ∧ SameSpecials s t ∧ SameMemory s t ∧ SameOuter s t ∧ GoesOn s t

/-- The instruction writes one general register, goes on, and changes nothing else. -/
def OnlyWrites (d : Reg) (v : Word) (s t : State) : Prop :=
  t.reg d = v ∧ SameRegsBut d s t ∧ t.sr = s.sr ∧ SameSpecials s t ∧ SameMemory s t ∧ SameOuter s t ∧ GoesOn s t

/-- The instruction sets F, goes on, and changes nothing else: no other bit of SR. -/
def OnlySetsFlag (f : Bool) (s t : State) : Prop :=
  t.flag = f ∧ (∀ k, k ≠ 9 → t.sr.getLsbD k = s.sr.getLsbD k) ∧ SameRegs s t ∧ SameSpecials s t ∧ SameMemory s t ∧
    SameOuter s t ∧ GoesOn s t

/-- The instruction stores some bytes, the first at physical address `lo`, goes on, and changes nothing else. -/
def OnlyStores (lo : Nat) (bytes : List Byte) (s t : State) : Prop :=
  (∀ k (h : k < bytes.length), t.mem.read (lo + k) = bytes[k]) ∧ SameMemoryOutside lo bytes.length s t ∧
    SameRegs s t ∧ t.sr = s.sr ∧ SameSpecials s t ∧ SameOuter s t ∧ GoesOn s t

/-! ### Exceptions -/

/-- The vector of a cause, from the table of 60_exceptions.md R270. -/
def vectorOf : Cause → Word
  | .busError _ => 0x200#32
  | .dataPageFault _ => 0x300#32
  | .insnPageFault _ => 0x400#32
  | .tick => 0x500#32
  | .alignment _ => 0x600#32
  | .illegal => 0x700#32
  | .external => 0x800#32
  | .dtlbMiss _ => 0x900#32
  | .itlbMiss _ => 0xA00#32
  | .syscall => 0xC00#32
  | .trap => 0xE00#32

/-- The exception is entered as 60_exceptions.md R271 says, from state `s` with the given saved pc: the exception registers,
SR, pc and DF; every general register, every other special register and memory are as before (R274). The record of the
peripheral is left open, since a faulting device access is an event. -/
def Enters (c : Cause) (savedPC : Word) (s t : State) : Prop :=
  t.pc = vectorOf c ∧ t.sr = 0x00008001#32 ∧ t.esr0 = (if s.df then s.sr ||| 0x00002000#32 else s.sr) ∧
    t.epcr0 = (if s.df then savedPC - 4#32 else savedPC) ∧
    t.eear0 = (match c.address with | some va => va | none => s.eear0) ∧ t.df = false ∧ t.dnpc = s.dnpc ∧
    SameRegs s t ∧ SameMemory s t ∧ t.ttmr = s.ttmr ∧ t.ttcr = s.ttcr ∧ t.picmr = s.picmr ∧ t.picsr = s.picsr ∧
    t.dmmu = s.dmmu ∧ t.immu = s.immu ∧ t.cfg = s.cfg ∧ t.draws = s.draws ∧ t.calls = s.calls ∧
    t.run = .returned .stop ∧ t.halted = s.halted

/-! ### Classes of instructions -/

/-- The jumps and branches (43_control.md R210 to R215), the instructions 40_fetch_and_sequencing.md R140 calls
control transfers. -/
def isTransfer : Instr → Bool
  | .j _ => true
  | .jal _ => true
  | .bnf _ => true
  | .bf _ => true
  | .jr _ => true
  | .jalr _ => true
  | _ => false

/-- The target of a transfer that is taken in a state (43_control.md R217). -/
def takenTarget (i : Instr) (s : State) : Option Word :=
  match i with
  | .j n => some (s.pc + BitVec.ofInt 32 (4 * n.toInt))
  | .jal n => some (s.pc + BitVec.ofInt 32 (4 * n.toInt))
  | .bnf n => if s.flag then none else some (s.pc + BitVec.ofInt 32 (4 * n.toInt))
  | .bf n => if s.flag then some (s.pc + BitVec.ofInt 32 (4 * n.toInt)) else none
  | .jr b => some (s.reg b)
  | .jalr b => some (s.reg b)
  | _ => none

/-- A data access: the base register, the offset, the width, and whether it is a store. -/
structure DataAccess where
  base : Reg
  offset : BitVec 16
  width : Width
  isWrite : Bool
deriving DecidableEq, Repr

/-- The access a load or store makes (44_load_store.md R230 to R238). -/
def dataAccess : Instr → Option DataAccess
  | .lwz _ a i => some ⟨a, i, .word, false⟩
  | .lws _ a i => some ⟨a, i, .word, false⟩
  | .lbz _ a i => some ⟨a, i, .byte, false⟩
  | .lbs _ a i => some ⟨a, i, .byte, false⟩
  | .lhz _ a i => some ⟨a, i, .half, false⟩
  | .lhs _ a i => some ⟨a, i, .half, false⟩
  | .sw a _ i => some ⟨a, i, .word, true⟩
  | .sb a _ i => some ⟨a, i, .byte, true⟩
  | .sh a _ i => some ⟨a, i, .half, true⟩
  | _ => none

/-- The access at a virtual address reaches RAM at a physical address: aligned, translated and permitted, and in RAM. -/
def ReachesRam (isWrite : Bool) (va : Word) (w : Width) (pa : Word) (s : State) : Prop :=
  va.toNat % widthBytes w = 0 ∧ translate .data isWrite va s = .ok pa ∧
    pa.toNat + widthBytes w ≤ s.cfg.maxRamAddress.toNat + 1

/-- The load puts the peripheral's answer, zero- or sign-extended, into its destination and changes no other register. -/
def LoadsAnswer (i : Instr) (x : DataAccess) (answer : Word) (s t : State) : Prop :=
  ∃ d, SameRegsBut d s t ∧
    ((i = .lwz d x.base x.offset ∧ t.reg d = answer) ∨ (i = .lws d x.base x.offset ∧ t.reg d = answer) ∨
      (i = .lbz d x.base x.offset ∧ (t.reg d).toNat = answer.toNat % 256) ∨
      (i = .lbs d x.base x.offset ∧ (t.reg d).toInt = Int.bmod answer.toNat 256) ∨
      (i = .lhz d x.base x.offset ∧ (t.reg d).toNat = answer.toNat % 65536) ∨
      (i = .lhs d x.base x.offset ∧ (t.reg d).toInt = Int.bmod answer.toNat 65536))

/-- The store offers the low bits of its source register. -/
def OffersValue (i : Instr) (x : DataAccess) (v : Word) (s : State) : Prop :=
  ∃ b, (i = .sw x.base b x.offset ∧ v = s.reg b) ∨ (i = .sh x.base b x.offset ∧ v.toNat = (s.reg b).toNat % 65536) ∨
    (i = .sb x.base b x.offset ∧ v.toNat = (s.reg b).toNat % 256)

/-! ### Translation, in terms of numbers -/

/-- The entry of an MMU that an address selects misses: it is not valid, or its tag is another page number (20_memory.md
R72). -/
def TlbMisses (m : Mmu) (va : Word) : Prop :=
  ∀ mr, m.mr[va.toNat / 8192 % 64]? = some mr → mr.getLsbD 0 = false ∨ mr.toNat / 8192 ≠ va.toNat / 8192

/-- The entry of an MMU that an address selects hits, with this translate register (R72). -/
def TlbHitsWith (m : Mmu) (va tr : Word) : Prop :=
  (∃ mr, m.mr[va.toNat / 8192 % 64]? = some mr ∧ mr.getLsbD 0 = true ∧ mr.toNat / 8192 = va.toNat / 8192) ∧
    m.tr[va.toNat / 8192 % 64]? = some tr

/-- The number of the permission bit of a translate register that decides an access of a side in a mode (R73, R74). -/
def permissionBit : Side → (isWrite supervisor : Bool) → Nat
  | .insn, _, true => 6
  | .insn, _, false => 7
  | .data, true, true => 9
  | .data, true, false => 7
  | .data, false, true => 8
  | .data, false, false => 6

/-! ### The special registers, as 10_state.md R46 tables them -/

/-- The special-register address of `l.mfspr` and `l.mtspr`: the low 16 bits of rA | K (45_system.md R250, R251). -/
def sprNumber (a : Reg) (k : BitVec 16) (s : State) : Nat := (s.reg a ||| k.zeroExtend 32).toNat % 65536

/-- The registers of the table that a read returns whole, by address; the TLB registers apart. -/
def plainSprs (s : State) : List (Nat × Word) :=
  [(0x0000, s.cfg.vr), (0x0001, s.cfg.upr), (0x0002, s.cfg.cpucfgr), (0x0003, s.cfg.dmmucfgr), (0x0004, s.cfg.immucfgr),
    (0x0020, s.epcr0), (0x0030, s.eear0), (0x0800, s.dmmu.cr), (0x1000, s.immu.cr), (0x4800, s.picmr),
    (0x4802, s.picsr), (0x5000, s.ttmr), (0x5001, s.ttcr)]

/-- An address of the table of R46, or one of the indices of R43. -/
def IsNamedSpr (n : Nat) : Prop :=
  n ∈ [0x0000, 0x0001, 0x0002, 0x0003, 0x0004, 0x0011, 0x0020, 0x0030, 0x0040, 0x0800, 0x1000, 0x4800, 0x4802, 0x5000,
      0x5001] ∨
    (0x0A00 ≤ n ∧ n < 0x0B00) ∨ (0x1200 ≤ n ∧ n < 0x1300)

/-- `l.mfspr`, `l.mtspr` and `l.rfe` execute in the mode the machine is in (60_exceptions.md R296). -/
def SystemAllowed (s : State) : Prop := s.sm = true ∨ s.cfg.userSystemAccess = .allow

/-- The state with the completion of an instruction that goes on: pc and DF as 40_fetch_and_sequencing.md R136 says. -/
def thenNext (s t : State) : State := { t with pc := if s.df then s.dnpc else s.pc + 4#32, df := false }

/-! ### The turn of the machine -/

/-- The next step is a cycle of the core, not a call of the host. -/
def State.cycles (s : State) : Bool := s.inRun || s.calls.isEmpty

/-- The fetch at pc reads this word from RAM: pc is aligned, translated and permitted, and its page lies in RAM. -/
def FetchesFromRam (w : Word) (s : State) : Prop :=
  ∃ pa, s.pc.toNat % 4 = 0 ∧ translate .insn false s.pc s = .ok pa ∧ pa.toNat + 4 ≤ s.cfg.maxRamAddress.toNat + 1 ∧
    w = s.mem.read pa.toNat ++ s.mem.read (pa.toNat + 1) ++ s.mem.read (pa.toNat + 2) ++ s.mem.read (pa.toNat + 3)

/-- The tick comparator matches in the next cycle: the mode, bits 31:30 of TTMR (10_state.md R34), is in TICK_ARMED_MODES,
and the low 28 bits of the count that cycle reaches are the period (60_exceptions.md R286, R287). That mode 00 never arms
is read from the parameter's range (notes/assumptions/20.md). -/
def TicksNext (s : State) : Prop :=
  ((s.ttmr.toNat / 1073741824 = 1 ∧ s.cfg.tickArmed.m01 = true) ∨
      (s.ttmr.toNat / 1073741824 = 2 ∧ s.cfg.tickArmed.m10 = true) ∨
      (s.ttmr.toNat / 1073741824 = 3 ∧ s.cfg.tickArmed.m11 = true)) ∧
    (s.ttcr.toNat + 1) % 268435456 = s.ttmr.toNat % 268435456

/-! ### The invariant -/

/-- What every step keeps: memory is in its canonical form and lists RAM addresses only; the parameters meet the spec's
requirement (20_memory.md R62); FO is 1 (10_state.md R26); a Run call under way has a cycle left. -/
def State.Inv (s : State) : Prop :=
  s.mem.wf = true ∧ s.mem.below (s.cfg.maxRamAddress.toNat + 1) = true ∧ s.cfg.wf = true ∧ s.sr.getLsbD 15 = true ∧
    s.run ≠ .running 0

end Sys2Proof.Machine
end

