-- ==== Sys2Proof/Certificates/Slice0/Obligations.lean ====
section
/-! DEFINITION. The statements for the provers, about every state and every operand unless a premise says otherwise. -/

open Sys2Proof Sys2Proof.Machine

/-! ### Encoding -/

/-- Decoding what the encoder writes for a well-formed instruction gives the instruction back, with every operand. -/
def Obligations.DecodeEncodeAgree : Prop := ∀ i : Instr, i.wf = true → decode (encode i) = .ok i

/-- A word decodes to an instruction exactly when the instruction's operands fit their fields, the word has the fixed bits
of the instruction's row in spec/opcode_table.json, and its operand fields hold the instruction's operands. -/
def Obligations.DecoderFollowsTheTable : Prop :=
  ∀ (w : Word) (i : Instr), decode w = .ok i ↔
    (i.wf = true ∧ w &&& i.rowMask = i.rowMatch ∧ w &&& i.operandMask = encode i &&& i.operandMask)

/-- A word is rejected exactly when it has the fixed bits of no row of the table (30_encoding.md R114, R121). -/
def Obligations.RejectedWordsHaveNoRow : Prop :=
  ∀ w : Word, (∃ e, decode w = .error e) ↔ ∀ i : Instr, w &&& i.rowMask ≠ i.rowMatch

/-- Bits outside the fixed bits of a row and its operand fields, the reserved fields, do not matter to the decoder
(30_encoding.md R115). -/
def Obligations.ReservedFieldsAreIgnored : Prop :=
  ∀ (w reserved : Word) (i : Instr), decode w = .ok i →
    decode (w ^^^ (reserved &&& ~~~(i.rowMask ||| i.operandMask))) = .ok i

/-- A few words written out from 95_test_vectors.md decode to the instructions they stand for. -/
def Obligations.WrittenOutWordsDecode : Prop :=
  decode 0x9C64FFFF#32 = .ok (.addi 3 4 0xFFFF) ∧ decode 0xE0642802#32 = .ok (.sub 3 4 5) ∧
    decode 0xB864009F#32 = .ok (.srai 3 4 31) ∧ decode 0xE5842800#32 = .ok (.sflts 4 5) ∧
    decode 0x13FFFFFE#32 = .ok (.bf 0x3FFFFFE) ∧ decode 0xD4041800#32 = .ok (.sw 4 3 0) ∧
    decode 0xC0205A02#32 = .ok (.mtspr 0 11 0xA02) ∧ decode 0x20000001#32 = .ok (.sys 1) ∧
    decode 0xE0642B07#32 = .ok .muld ∧ decode 0x1C000000#32 = .error .unassignedPrimary

/-! ### The cycle -/

/-- A step at which the core runs a cycle without a tick dispatch executes the instruction that the word at pc stands for,
in the state in which the tick phase has run and one cycle of the budget of a Run call is used up; after it the Run call
is closed when its budget is spent (40_fetch_and_sequencing.md R130). The bookkeeping of Run calls is the model's choice
(notes/assumptions/10.md). -/
def Obligations.StepRunsTheDecodedInstruction : Prop :=
  ∀ (s : State) (w : Word) (i : Instr), s.cycles = true → ¬(TicksNext s ∧ s.tickEnabled = true) → FetchesFromRam w s →
    s.cfg.haltWord ≠ some w → decode w = .ok i → step s = afterCycle (exec i (tickPhase (spendBudget s)))

/-- What the tick phase does (60_exceptions.md R286, R287): the count advances modulo 2^32; on a match IP, bit 28 of TTMR, is
set; nothing else of the machine changes. That a new cycle clears the halted mark is the model's own: no rule clears it
(notes/assumptions/12.md). A mode arms when it is in TICK_ARMED_MODES; that mode 00 never does is read from the
parameter's range (notes/assumptions/20.md). -/
def Obligations.TickPhaseCountsAndMarks : Prop :=
  ∀ s : State, ∃ ip : Word, tickPhase s = { s with ttcr := BitVec.ofNat 32 (s.ttcr.toNat + 1), ttmr := ip, halted := false } ∧
    (∀ k, k ≠ 28 → ip.getLsbD k = s.ttmr.getLsbD k) ∧ (TicksNext s → ip.getLsbD 28 = true) ∧
    (¬TicksNext s → ip = s.ttmr)

/-- A match with TTMR.IE and SR.TEE set dispatches the tick exception and executes no instruction (60_exceptions.md R288);
the armed modes are those of TICK_ARMED_MODES, mode 00 never (notes/assumptions/20.md). -/
def Obligations.TickMatchDispatches : Prop :=
  ∀ s : State, TicksNext s → s.ttmr.getLsbD 29 = true → s.sr.getLsbD 1 = true →
    ∃ t, cycle s = .next t ∧ Enters .tick s.pc (tickPhase s) t ∧ t.device = s.device ∧
      t.ttcr.toNat = (s.ttcr.toNat + 1) % 4294967296 ∧ t.ttmr.getLsbD 28 = true

/-- Every cycle that gives a next state counts once, but for the one instruction that writes the count: after a cycle
TTCR is one more than before, or the word at pc is an `l.mtspr` of TTCR (60_exceptions.md R286). -/
def Obligations.EveryCycleCounts : Prop :=
  ∀ s t : State, cycle s = .next t → t.ttcr = s.ttcr + 1#32 ∨
    ∃ w u a b k, fetch (tickPhase s) = .ok w u ∧ decode w = .ok (.mtspr a b k) ∧ sprNumber a k u = 0x5001 ∧ t.ttcr = u.reg b

/-- The exceptions of a fetch, in their order (40_fetch_and_sequencing.md R132): a misaligned pc, a TLB miss, no execute
permission, nothing at the physical address; each is entered with pc as the saved pc. A fetch whose physical address lies
in the peripheral window shows the peripheral one word read: when it refuses, the bus error is entered; when it answers,
the word is run as a word of RAM is: the halt word ends the run, a word with no row takes the illegal-instruction
exception, any other is executed (20_memory.md R68, R69). What the peripheral answers is free, and the record of its
accesses is the model's (notes/assumptions/4.md, notes/assumptions/17.md). -/
def Obligations.FetchExceptions : Prop :=
  ∀ s : State, ¬(TicksNext s ∧ s.tickEnabled = true) →
    (s.pc.toNat % 4 ≠ 0 → ∃ t, cycle s = .next t ∧ Enters (.alignment s.pc) s.pc (tickPhase s) t) ∧
    (s.pc.toNat % 4 = 0 → s.sr.getLsbD 6 = true → TlbMisses s.immu s.pc →
      ∃ t, cycle s = .next t ∧ Enters (.itlbMiss s.pc) s.pc (tickPhase s) t) ∧
    (∀ tr, s.pc.toNat % 4 = 0 → s.sr.getLsbD 6 = true → TlbHitsWith s.immu s.pc tr →
      tr.getLsbD (permissionBit .insn false s.sm) = false →
      ∃ t, cycle s = .next t ∧ Enters (.insnPageFault s.pc) s.pc (tickPhase s) t) ∧
    (∀ pa, s.pc.toNat % 4 = 0 → translate .insn false s.pc s = .ok pa → regionOf s.cfg pa .word = .unmapped →
      ∃ t, cycle s = .next t ∧ Enters (.busError s.pc) s.pc (tickPhase s) t) ∧
    (∀ pa, s.pc.toNat % 4 = 0 → translate .insn false s.pc s = .ok pa → regionOf s.cfg pa .word = .device →
      match Config.deviceRead s.device pa .word with
      | none => ∃ t, cycle s = .next t ∧ Enters (.busError s.pc) s.pc (tickPhase s) t ∧
          t.device = .read pa .word none :: s.device
      | some w =>
          (s.cfg.haltWord = some w → cycle s = .next { tickPhase s with
            device := .read pa .word (some w) :: s.device, halted := true, run := .returned .stop }) ∧
          (s.cfg.haltWord ≠ some w → (∀ i : Instr, w &&& i.rowMask ≠ i.rowMatch) →
            ∃ t, cycle s = .next t ∧ Enters .illegal s.pc (tickPhase s) t ∧
              t.device = .read pa .word (some w) :: s.device) ∧
          (∀ i, s.cfg.haltWord ≠ some w → decode w = .ok i →
            cycle s = exec i { tickPhase s with device := .read pa .word (some w) :: s.device }))

/-- A word that no row of the table has takes the illegal-instruction exception at its own address (30_encoding.md R114). -/
def Obligations.UnassignedWordTakesIllegal : Prop :=
  ∀ (s : State) (w : Word), ¬(TicksNext s ∧ s.tickEnabled = true) → FetchesFromRam w s → s.cfg.haltWord ≠ some w →
    (∀ i : Instr, w &&& i.rowMask ≠ i.rowMatch) →
    ∃ t, cycle s = .next t ∧ Enters .illegal s.pc (tickPhase s) t ∧ t.device = s.device

/-- The fetch of the halt word changes nothing beyond the tick phase and ends the run (40_fetch_and_sequencing.md R133). -/
def Obligations.HaltWordEndsTheRun : Prop :=
  ∀ (s : State) (w : Word), ¬(TicksNext s ∧ s.tickEnabled = true) → FetchesFromRam w s → s.cfg.haltWord = some w →
    cycle s = .next { tickPhase s with halted := true, run := .returned .stop }

/-! ### Exceptions -/

/-- Taking an exception, with every field it writes and everything it leaves (60_exceptions.md R271). -/
def Obligations.DispatchEntersTheHandler : Prop :=
  ∀ (c : Cause) (savedPC : Word) (s : State),
    Enters c savedPC s (dispatch c savedPC s) ∧ (dispatch c savedPC s).device = s.device

/-- `l.sys` outside a delay slot takes the system call, with the address after it saved; `l.trap` takes the trap in every
state, with its own address saved (45_system.md R252, R253). -/
def Obligations.SystemCallAndTrapEnter : Prop :=
  ∀ (k : BitVec 16) (s : State),
    (s.df = false → ∃ t, exec (.sys k) s = .next t ∧ Enters .syscall (s.pc + 4#32) s t ∧ t.device = s.device) ∧
    ∃ t, exec (.trap k) s = .next t ∧ Enters .trap s.pc s t ∧ t.device = s.device

/-- `l.rfe` where it may execute (60_exceptions.md R296), outside a delay slot: pc takes EPCR0, SR takes ESR0 with bit 15
set, DF is cleared, and nothing else changes, the exception registers and DNPC among it (40_fetch_and_sequencing.md R139,
45_system.md R254). -/
def Obligations.ReturnRestores : Prop :=
  ∀ s : State, SystemAllowed s → s.df = false →
    ∃ t, exec .rfe s = .next t ∧ t.pc = s.epcr0 ∧ t.sr.getLsbD 15 = true ∧
      (∀ k, k ≠ 15 → t.sr.getLsbD k = s.esr0.getLsbD k) ∧ t.df = false ∧ t.dnpc = s.dnpc ∧ SameRegs s t ∧
      SameSpecials s t ∧ SameMemory s t ∧ SameOuter s t

/-- An `l.rfe` right after an exception is taken goes back: to the saved pc with SR as it was, or, from a delay slot,
to the transfer before it with DSX set in SR. -/
def Obligations.ReturnUndoesDispatch : Prop :=
  ∀ (c : Cause) (savedPC : Word) (s : State), s.sr.getLsbD 15 = true →
    ∃ t, exec .rfe (dispatch c savedPC s) = .next t ∧ t.df = false ∧ SameRegs s t ∧ SameMemory s t ∧
      t.pc = (if s.df then savedPC - 4#32 else savedPC) ∧
      (∀ k, t.sr.getLsbD k = (s.sr.getLsbD k || (s.df && decide (k = 13))))

/-- EEAR0 changes in an instruction only by the entry of an exception whose kind carries an address, or by `l.mtspr` of
EEAR0 (60_exceptions.md R273). -/
def Obligations.FaultAddressWrittenOnlyByFaults : Prop :=
  ∀ (i : Instr) (s t : State), exec i s = .next t →
    t.eear0 = s.eear0 ∨ (∃ c va, c.address = some va ∧ t.eear0 = va ∧ Enters c s.pc s t) ∨
      ∃ a b k, i = .mtspr a b k ∧ sprNumber a k s = 0x0030 ∧ t.eear0 = s.reg b

/-- No instruction and no cycle ends in a fault: every fault of the machine is an exception it takes. -/
def Obligations.InstructionsNeverFault : Prop :=
  (∀ (i : Instr) (s : State) (f : Fault), exec i s ≠ .fault f) ∧ ∀ (s : State) (f : Fault), cycle s ≠ .fault f

/-- An instruction whose execution takes an exception writes no register and no byte of memory, and every other
instruction that gives a next state leaves the exception registers to `l.mtspr` (60_exceptions.md R274, R275). -/
def Obligations.ExceptionsArePrecise : Prop :=
  ∀ (i : Instr) (s t : State), exec i s = .next t →
    (∃ c savedPC, Enters c savedPC s t) ∨
      ((t.epcr0 = s.epcr0 ∧ t.esr0 = s.esr0 ∧ t.eear0 = s.eear0) ∨ ∃ a b k, i = .mtspr a b k)

/-- SR.FO is 1 after every write of SR, whatever is written: `l.mtspr`, taking an exception, `l.rfe`, the host's SetSpReg and Reset;
and a step keeps it (10_state.md R26). -/
def Obligations.FixedOneIsForced : Prop :=
  (∀ (a b : Reg) (k : BitVec 16) (s t : State), sprNumber a k s = 0x0011 → exec (.mtspr a b k) s = .next t →
      t.sr.getLsbD 15 = true) ∧
    (∀ (c : Cause) (savedPC : Word) (s : State), (dispatch c savedPC s).sr.getLsbD 15 = true) ∧
    (∀ s t : State, exec .rfe s = .next t → t.sr.getLsbD 15 = true) ∧
    (∀ (v : Word) (s t : State), hostCall (.setSpr 0x0011#16 v) s = .next t → t.sr.getLsbD 15 = true) ∧
    (∀ s t : State, hostCall .reset s = .next t → t.sr.getLsbD 15 = true) ∧
    (∀ s t : State, s.sr.getLsbD 15 = true → step s = .next t → t.sr.getLsbD 15 = true)

/-! ### Invariants and rules of the whole machine -/

/-- Every step keeps the invariant: the canonical form of memory, RAM addresses only in it, the parameters as the spec
requires them, FO, and a Run call under way having a cycle left; and no step changes a parameter. The canonical form and
the bookkeeping of Run calls are the model's choice (notes/assumptions/2.md, notes/assumptions/10.md). -/
def Obligations.StepKeepsInvariant : Prop := ∀ s t : State, s.Inv → step s = .next t → t.Inv ∧ t.cfg = s.cfg

/-- The state after reset meets the invariant. The memory and the parameters it starts with are the model's choice
(notes/assumptions/1.md, notes/assumptions/2.md). -/
def Obligations.ResetMeetsInvariant : Prop := State.reset.Inv

/-- The sequencing rules never make pc misaligned: only a jump to a register or `l.rfe` can (40_fetch_and_sequencing.md
R143). DNPC counts only while DF is 1: an aligned pc with, in a delay slot, an aligned DNPC is followed by the same; and
a DNPC that is aligned stays so whatever DF is. -/
def Obligations.SequencingKeepsPcAligned : Prop :=
  ∀ (i : Instr) (s t : State), s.pc.toNat % 4 = 0 → (s.df = true → s.dnpc.toNat % 4 = 0) → exec i s = .next t →
    (∀ b, i = .jr b ∨ i = .jalr b → (s.reg b).toNat % 4 = 0) → (i = .rfe → s.epcr0.toNat % 4 = 0) →
    t.pc.toNat % 4 = 0 ∧ (t.df = true → t.dnpc.toNat % 4 = 0) ∧ (s.dnpc.toNat % 4 = 0 → t.dnpc.toNat % 4 = 0)

/-- The delay-slot law over two steps (40_fetch_and_sequencing.md R141): after a taken transfer at address A the next step is at
A + 4, and that step goes on to the target, or halts at A + 4, or takes an exception that saves A with DSX set. -/
def Obligations.DelaySlotLaw : Prop :=
  ∀ (s t u : State) (w : Word) (i : Instr) (target : Word), s.cycles = true → ¬(TicksNext s ∧ s.tickEnabled = true) →
    FetchesFromRam w s → s.cfg.haltWord ≠ some w → decode w = .ok i → takenTarget i s = some target →
    step s = .next t → t.cycles = true → step t = .next u →
    s.df = false ∧ t.pc = s.pc + 4#32 ∧
      ((u.pc = target ∧ u.df = false) ∨ (u.halted = true ∧ u.pc = s.pc + 4#32 ∧ u.df = true) ∨
        ∃ c, u.pc = vectorOf c ∧ u.epcr0 = s.pc ∧ u.esr0.getLsbD 13 = true ∧ u.df = false)

/-- Transfers, `l.rfe` and `l.sys` are refused in a delay slot (40_fetch_and_sequencing.md R140); user mode is looked at
first for `l.rfe` (45_system.md R254). -/
def Obligations.DelaySlotRefusals : Prop :=
  ∀ s : State, s.df = true →
    (∀ i : Instr, isTransfer i = true → exec i s = .refused .transferInDelaySlot) ∧
    (∀ k, exec (.sys k) s = .refused .sysInDelaySlot) ∧
    (SystemAllowed s → exec .rfe s = .refused .rfeInDelaySlot) ∧
    (¬SystemAllowed s → exec .rfe s = .refused .userRfe)

/-! ### Control transfers -/

/-- `l.j` and `l.jal` outside a delay slot: the target is pc plus four times the signed word offset, and `l.jal` writes
pc + 8 into r9 (43_control.md R210, R211). -/
def Obligations.ImmediateJumps : Prop :=
  ∀ (n : BitVec 26) (s : State), s.df = false →
    (∃ t, exec (.j n) s = .next t ∧ TransfersTo (BitVec.ofInt 32 (s.pc.toInt + 4 * n.toInt)) s t ∧ SameRegs s t ∧
      t.sr = s.sr ∧ SameSpecials s t ∧ SameMemory s t ∧ SameOuter s t) ∧
    (∃ t, exec (.jal n) s = .next t ∧ TransfersTo (BitVec.ofInt 32 (s.pc.toInt + 4 * n.toInt)) s t ∧
      t.reg 9 = s.pc + 8#32 ∧ SameRegsBut 9 s t ∧ t.sr = s.sr ∧ SameSpecials s t ∧ SameMemory s t ∧ SameOuter s t)

/-- `l.bf` and `l.bnf` outside a delay slot: taken when F is 1, or 0; not taken they only go on (43_control.md R212, R213). -/
def Obligations.ConditionalBranches : Prop :=
  ∀ (n : BitVec 26) (s : State), s.df = false →
    (∃ t, exec (.bf n) s = .next t ∧
      (if s.sr.getLsbD 9 then TransfersTo (BitVec.ofInt 32 (s.pc.toInt + 4 * n.toInt)) s t else GoesOn s t) ∧
      SameRegs s t ∧ t.sr = s.sr ∧ SameSpecials s t ∧ SameMemory s t ∧ SameOuter s t) ∧
    (∃ t, exec (.bnf n) s = .next t ∧
      (if s.sr.getLsbD 9 then GoesOn s t else TransfersTo (BitVec.ofInt 32 (s.pc.toInt + 4 * n.toInt)) s t) ∧
      SameRegs s t ∧ t.sr = s.sr ∧ SameSpecials s t ∧ SameMemory s t ∧ SameOuter s t)

/-- `l.jr` and `l.jalr` outside a delay slot go to the value rB held before; `l.jalr` writes pc + 8 into r9, also when
rB is r9 (43_control.md R214, R215). -/
def Obligations.RegisterJumps : Prop :=
  ∀ (b : Reg) (s : State), s.df = false →
    (∃ t, exec (.jr b) s = .next t ∧ TransfersTo (s.reg b) s t ∧ SameRegs s t ∧ t.sr = s.sr ∧ SameSpecials s t ∧
      SameMemory s t ∧ SameOuter s t) ∧
    (∃ t, exec (.jalr b) s = .next t ∧ TransfersTo (s.reg b) s t ∧ t.reg 9 = s.pc + 8#32 ∧ SameRegsBut 9 s t ∧
      t.sr = s.sr ∧ SameSpecials s t ∧ SameMemory s t ∧ SameOuter s t)

/-- `l.nop` and the three synchronisation instructions only go on (43_control.md R216, 45_system.md R255 to R257). -/
def Obligations.NopAndSyncsOnlyGoOn : Prop :=
  ∀ s : State, (∀ k, ∃ t, exec (.nop k) s = .next t ∧ OnlyGoesOn s t) ∧
    (∃ t, exec .msync s = .next t ∧ OnlyGoesOn s t) ∧ (∃ t, exec .psync s = .next t ∧ OnlyGoesOn s t) ∧
    (∃ t, exec .csync s = .next t ∧ OnlyGoesOn s t)

/-! ### The ALU -/

/-- `l.add`, `l.addi` and `l.sub` give the exact sum or difference modulo 2^32, write one register and no flag
(41_alu.md R151, R160, R161). -/
def Obligations.AddAndSubtractWrap : Prop :=
  ∀ (d a b : Reg) (k : BitVec 16) (s : State),
    (∃ t, exec (.add d a b) s = .next t ∧ OnlyWrites d (BitVec.ofNat 32 ((s.reg a).toNat + (s.reg b).toNat)) s t) ∧
    (∃ t, exec (.addi d a k) s = .next t ∧ OnlyWrites d (BitVec.ofInt 32 ((s.reg a).toInt + k.toInt)) s t) ∧
    (∃ t, exec (.sub d a b) s = .next t ∧ OnlyWrites d (BitVec.ofInt 32 ((s.reg a).toInt - (s.reg b).toInt)) s t)

/-- The bitwise instructions, bit by bit: `l.andi` and `l.ori` take the immediate with zeros above it, `l.xori` with copies of
its bit 15; `l.movhi` puts it in the upper half (41_alu.md R150, R152 to R154, R162 to R164). -/
def Obligations.BitwiseResults : Prop :=
  ∀ (d a b : Reg) (k : BitVec 16) (s : State),
    (∃ t v, exec (.and d a b) s = .next t ∧ OnlyWrites d v s t ∧
      ∀ n < 32, v.getLsbD n = ((s.reg a).getLsbD n && (s.reg b).getLsbD n)) ∧
    (∃ t v, exec (.or d a b) s = .next t ∧ OnlyWrites d v s t ∧
      ∀ n < 32, v.getLsbD n = ((s.reg a).getLsbD n || (s.reg b).getLsbD n)) ∧
    (∃ t v, exec (.xor d a b) s = .next t ∧ OnlyWrites d v s t ∧
      ∀ n < 32, v.getLsbD n = ((s.reg a).getLsbD n ^^ (s.reg b).getLsbD n)) ∧
    (∃ t v, exec (.andi d a k) s = .next t ∧ OnlyWrites d v s t ∧
      ∀ n < 32, v.getLsbD n = ((s.reg a).getLsbD n && (decide (n < 16) && k.getLsbD n))) ∧
    (∃ t v, exec (.ori d a k) s = .next t ∧ OnlyWrites d v s t ∧
      ∀ n < 32, v.getLsbD n = ((s.reg a).getLsbD n || (decide (n < 16) && k.getLsbD n))) ∧
    (∃ t v, exec (.xori d a k) s = .next t ∧ OnlyWrites d v s t ∧
      ∀ n < 32, v.getLsbD n = ((s.reg a).getLsbD n ^^ (if n < 16 then k.getLsbD n else k.getLsbD 15))) ∧
    (∃ t v, exec (.movhi d k) s = .next t ∧ OnlyWrites d v s t ∧ v.toNat = k.toNat * 65536)

/-- The multiplications keep the low 32 bits of the exact product, the same for signed and unsigned operands
(41_alu.md R155, R165, R166). -/
def Obligations.MultiplyKeepsTheLowWord : Prop :=
  ∀ (d a b : Reg) (k : BitVec 16) (s : State),
    (∃ t v, exec (.mul d a b) s = .next t ∧ OnlyWrites d v s t ∧
      v = BitVec.ofInt 32 ((s.reg a).toInt * (s.reg b).toInt) ∧
      v.toNat = (s.reg a).toNat * (s.reg b).toNat % 4294967296) ∧
    (∃ t v, exec (.mulu d a b) s = .next t ∧ OnlyWrites d v s t ∧
      v = BitVec.ofInt 32 ((s.reg a).toInt * (s.reg b).toInt) ∧
      v.toNat = (s.reg a).toNat * (s.reg b).toNat % 4294967296) ∧
    (∃ t v, exec (.muli d a k) s = .next t ∧ OnlyWrites d v s t ∧ v = BitVec.ofInt 32 ((s.reg a).toInt * k.toInt))

/-- `l.div`: 0 for a zero divisor; refused for -2^31 by -1; else the exact quotient rounded toward zero, so that the quotient
times the divisor leaves a rest smaller than the divisor and of the dividend's sign. `l.divu`: 0 for a zero divisor, else
the exact quotient rounded down (41_alu.md R167, R168). -/
def Obligations.Division : Prop :=
  ∀ (d a b : Reg) (s : State),
    ((s.reg b).toInt = 0 → ∃ t, exec (.div d a b) s = .next t ∧ OnlyWrites d 0#32 s t) ∧
    ((s.reg a).toInt = -2147483648 → (s.reg b).toInt = -1 → exec (.div d a b) s = .refused .divisionOverflow) ∧
    ((s.reg b).toInt ≠ 0 → ¬((s.reg a).toInt = -2147483648 ∧ (s.reg b).toInt = -1) →
      ∃ t v, exec (.div d a b) s = .next t ∧ OnlyWrites d v s t ∧
        ((s.reg a).toInt - v.toInt * (s.reg b).toInt).natAbs < (s.reg b).toInt.natAbs ∧
        0 ≤ (s.reg a).toInt * ((s.reg a).toInt - v.toInt * (s.reg b).toInt)) ∧
    ((s.reg b).toNat = 0 → ∃ t, exec (.divu d a b) s = .next t ∧ OnlyWrites d 0#32 s t) ∧
    ((s.reg b).toNat ≠ 0 → ∃ t v, exec (.divu d a b) s = .next t ∧ OnlyWrites d v s t ∧
      v.toNat * (s.reg b).toNat ≤ (s.reg a).toNat ∧ (s.reg a).toNat < (v.toNat + 1) * (s.reg b).toNat)

/-- The shifts and the rotation by a register take the amount modulo 32, bits 4:0 (41_alu.md R169 to R172). -/
def Obligations.RegisterShifts : Prop :=
  ∀ (d a b : Reg) (s : State),
    (∃ t v, exec (.sll d a b) s = .next t ∧ OnlyWrites d v s t ∧
      v.toNat = (s.reg a).toNat * 2 ^ ((s.reg b).toNat % 32) % 4294967296) ∧
    (∃ t v, exec (.srl d a b) s = .next t ∧ OnlyWrites d v s t ∧
      v.toNat = (s.reg a).toNat / 2 ^ ((s.reg b).toNat % 32)) ∧
    (∃ t v, exec (.sra d a b) s = .next t ∧ OnlyWrites d v s t ∧
      v.toInt = (s.reg a).toInt / 2 ^ ((s.reg b).toNat % 32)) ∧
    (∃ t v, exec (.ror d a b) s = .next t ∧ OnlyWrites d v s t ∧
      ∀ k < 32, v.getLsbD k = (s.reg a).getLsbD ((k + (s.reg b).toNat % 32) % 32))

/-- The shifts and the rotation by an immediate below 32; from 32 on they are refused (41_alu.md R156 to R159). -/
def Obligations.ImmediateShifts : Prop :=
  ∀ (d a : Reg) (l : Nat) (s : State),
    (l < 32 →
      (∃ t v, exec (.slli d a l) s = .next t ∧ OnlyWrites d v s t ∧ v.toNat = (s.reg a).toNat * 2 ^ l % 4294967296) ∧
      (∃ t v, exec (.srli d a l) s = .next t ∧ OnlyWrites d v s t ∧ v.toNat = (s.reg a).toNat / 2 ^ l) ∧
      (∃ t v, exec (.srai d a l) s = .next t ∧ OnlyWrites d v s t ∧ v.toInt = (s.reg a).toInt / 2 ^ l) ∧
      (∃ t v, exec (.rori d a l) s = .next t ∧ OnlyWrites d v s t ∧
        ∀ k < 32, v.getLsbD k = (s.reg a).getLsbD ((k + l) % 32))) ∧
    (32 ≤ l → exec (.slli d a l) s = .refused .shiftAmountAbove31 ∧ exec (.srli d a l) s = .refused .shiftAmountAbove31 ∧
      exec (.srai d a l) s = .refused .shiftAmountAbove31 ∧ exec (.rori d a l) s = .refused .shiftAmountAbove31)

/-- The extensions read the low halfword or byte as a signed or an unsigned integer; `l.cmov` takes rA when F is 1, else rB
(41_alu.md R173 to R177). -/
def Obligations.ExtensionsAndConditionalMove : Prop :=
  ∀ (d a b : Reg) (s : State),
    (∃ t v, exec (.exths d a) s = .next t ∧ OnlyWrites d v s t ∧ v.toInt = Int.bmod (s.reg a).toNat 65536) ∧
    (∃ t v, exec (.extbs d a) s = .next t ∧ OnlyWrites d v s t ∧ v.toInt = Int.bmod (s.reg a).toNat 256) ∧
    (∃ t v, exec (.exthz d a) s = .next t ∧ OnlyWrites d v s t ∧ v.toNat = (s.reg a).toNat % 65536) ∧
    (∃ t v, exec (.extbz d a) s = .next t ∧ OnlyWrites d v s t ∧ v.toNat = (s.reg a).toNat % 256) ∧
    (∃ t, exec (.cmov d a b) s = .next t ∧ OnlyWrites d (if s.sr.getLsbD 9 then s.reg a else s.reg b) s t)

/-- `l.ff1` and `l.fl1`: one more than the index of the lowest, or highest, 1 bit; 0 when there is none (41_alu.md R178,
R179). -/
def Obligations.BitSearch : Prop :=
  ∀ (d a : Reg) (s : State),
    (∃ t v, exec (.ff1 d a) s = .next t ∧ OnlyWrites d v s t ∧ (s.reg a = 0#32 → v = 0#32) ∧
      (∀ k < 32, (s.reg a).getLsbD k = true → (∀ m < k, (s.reg a).getLsbD m = false) → v.toNat = k + 1)) ∧
    (∃ t v, exec (.fl1 d a) s = .next t ∧ OnlyWrites d v s t ∧ (s.reg a = 0#32 → v = 0#32) ∧
      (∀ k < 32, (s.reg a).getLsbD k = true → (∀ m, k < m → (s.reg a).getLsbD m = false) → v.toNat = k + 1))

/-! ### Compares -/

/-- The compares of two registers set F as their condition says and change no other bit of SR (42_compare.md R190 to
R199). -/
def Obligations.RegisterCompares : Prop :=
  ∀ (a b : Reg) (s : State),
    (∃ t, exec (.sfeq a b) s = .next t ∧ OnlySetsFlag (decide (s.reg a = s.reg b)) s t) ∧
    (∃ t, exec (.sfne a b) s = .next t ∧ OnlySetsFlag (decide (s.reg a ≠ s.reg b)) s t) ∧
    (∃ t, exec (.sfgtu a b) s = .next t ∧ OnlySetsFlag (decide ((s.reg b).toNat < (s.reg a).toNat)) s t) ∧
    (∃ t, exec (.sfgeu a b) s = .next t ∧ OnlySetsFlag (decide ((s.reg b).toNat ≤ (s.reg a).toNat)) s t) ∧
    (∃ t, exec (.sfltu a b) s = .next t ∧ OnlySetsFlag (decide ((s.reg a).toNat < (s.reg b).toNat)) s t) ∧
    (∃ t, exec (.sfleu a b) s = .next t ∧ OnlySetsFlag (decide ((s.reg a).toNat ≤ (s.reg b).toNat)) s t) ∧
    (∃ t, exec (.sfgts a b) s = .next t ∧ OnlySetsFlag (decide ((s.reg b).toInt < (s.reg a).toInt)) s t) ∧
    (∃ t, exec (.sfges a b) s = .next t ∧ OnlySetsFlag (decide ((s.reg b).toInt ≤ (s.reg a).toInt)) s t) ∧
    (∃ t, exec (.sflts a b) s = .next t ∧ OnlySetsFlag (decide ((s.reg a).toInt < (s.reg b).toInt)) s t) ∧
    (∃ t, exec (.sfles a b) s = .next t ∧ OnlySetsFlag (decide ((s.reg a).toInt ≤ (s.reg b).toInt)) s t)

/-- The compares with an immediate: it is sign-extended for every condition, and the unsigned conditions then read it
modulo 2^32 (42_compare.md R200 to R209). -/
def Obligations.ImmediateCompares : Prop :=
  ∀ (a : Reg) (k : BitVec 16) (s : State),
    (∃ t, exec (.sfeqi a k) s = .next t ∧ OnlySetsFlag (decide ((s.reg a).toInt = k.toInt)) s t) ∧
    (∃ t, exec (.sfnei a k) s = .next t ∧ OnlySetsFlag (decide ((s.reg a).toInt ≠ k.toInt)) s t) ∧
    (∃ t, exec (.sfgtui a k) s = .next t ∧ OnlySetsFlag (decide (k.toInt % 4294967296 < (s.reg a).toNat)) s t) ∧
    (∃ t, exec (.sfgeui a k) s = .next t ∧ OnlySetsFlag (decide (k.toInt % 4294967296 ≤ (s.reg a).toNat)) s t) ∧
    (∃ t, exec (.sfltui a k) s = .next t ∧ OnlySetsFlag (decide (((s.reg a).toNat : Int) < k.toInt % 4294967296)) s t) ∧
    (∃ t, exec (.sfleui a k) s = .next t ∧ OnlySetsFlag (decide (((s.reg a).toNat : Int) ≤ k.toInt % 4294967296)) s t) ∧
    (∃ t, exec (.sfgtsi a k) s = .next t ∧ OnlySetsFlag (decide (k.toInt < (s.reg a).toInt)) s t) ∧
    (∃ t, exec (.sfgesi a k) s = .next t ∧ OnlySetsFlag (decide (k.toInt ≤ (s.reg a).toInt)) s t) ∧
    (∃ t, exec (.sfltsi a k) s = .next t ∧ OnlySetsFlag (decide ((s.reg a).toInt < k.toInt)) s t) ∧
    (∃ t, exec (.sflesi a k) s = .next t ∧ OnlySetsFlag (decide ((s.reg a).toInt ≤ k.toInt)) s t)

/-! ### Memory -/

/-- Translation, in numbers (20_memory.md R70 to R76): off, the address itself; on, a miss, a denial by the permission bit
of the side, the kind of access and the mode, or the page of the translate register with the offset kept. -/
def Obligations.TranslationFollowsTheTlb : Prop :=
  ∀ (side : Side) (isWrite : Bool) (va : Word) (s : State),
    (s.sr.getLsbD (match side with | .insn => 6 | .data => 5) = false → translate side isWrite va s = .ok va) ∧
    (s.sr.getLsbD (match side with | .insn => 6 | .data => 5) = true → TlbMisses (s.mmu side) va →
      translate side isWrite va s = .error (match side with | .insn => .itlbMiss va | .data => .dtlbMiss va)) ∧
    (∀ tr, s.sr.getLsbD (match side with | .insn => 6 | .data => 5) = true → TlbHitsWith (s.mmu side) va tr →
      tr.getLsbD (permissionBit side isWrite (s.sr.getLsbD 0)) = false →
      translate side isWrite va s = .error (match side with | .insn => .insnPageFault va | .data => .dataPageFault va)) ∧
    (∀ tr, s.sr.getLsbD (match side with | .insn => 6 | .data => 5) = true → TlbHitsWith (s.mmu side) va tr →
      tr.getLsbD (permissionBit side isWrite (s.sr.getLsbD 0)) = true →
      ∃ pa, translate side isWrite va s = .ok pa ∧ pa.toNat = tr.toNat / 8192 * 8192 + va.toNat % 8192)

/-- The loads that reach RAM, in numbers: the bytes at the physical address in big-endian order, zero- or sign-extended,
into rD (44_load_store.md R230 to R235). -/
def Obligations.LoadsFromRam : Prop :=
  ∀ (d a : Reg) (i : BitVec 16) (pa : Word) (s : State),
    (ReachesRam false (s.effectiveAddress a i) .word pa s →
      (∃ t v, exec (.lwz d a i) s = .next t ∧ OnlyWrites d v s t ∧
        v.toNat = (s.mem.read pa.toNat).toNat * 16777216 + (s.mem.read (pa.toNat + 1)).toNat * 65536 +
          (s.mem.read (pa.toNat + 2)).toNat * 256 + (s.mem.read (pa.toNat + 3)).toNat) ∧
      (∃ t v, exec (.lws d a i) s = .next t ∧ OnlyWrites d v s t ∧
        v.toNat = (s.mem.read pa.toNat).toNat * 16777216 + (s.mem.read (pa.toNat + 1)).toNat * 65536 +
          (s.mem.read (pa.toNat + 2)).toNat * 256 + (s.mem.read (pa.toNat + 3)).toNat)) ∧
    (ReachesRam false (s.effectiveAddress a i) .byte pa s →
      (∃ t v, exec (.lbz d a i) s = .next t ∧ OnlyWrites d v s t ∧ v.toNat = (s.mem.read pa.toNat).toNat) ∧
      (∃ t v, exec (.lbs d a i) s = .next t ∧ OnlyWrites d v s t ∧ v.toInt = (s.mem.read pa.toNat).toInt)) ∧
    (ReachesRam false (s.effectiveAddress a i) .half pa s →
      (∃ t v, exec (.lhz d a i) s = .next t ∧ OnlyWrites d v s t ∧
        v.toNat = (s.mem.read pa.toNat).toNat * 256 + (s.mem.read (pa.toNat + 1)).toNat) ∧
      (∃ t v, exec (.lhs d a i) s = .next t ∧ OnlyWrites d v s t ∧
        v.toInt = (s.mem.read pa.toNat).toInt * 256 + (s.mem.read (pa.toNat + 1)).toNat))

/-- The stores that reach RAM: the bytes of rB in big-endian order from the physical address on, and no other byte
(44_load_store.md R236 to R238). -/
def Obligations.StoresToRam : Prop :=
  ∀ (a b : Reg) (i : BitVec 16) (pa : Word) (s : State), s.mem.wf = true →
    (ReachesRam true (s.effectiveAddress a i) .word pa s → ∃ t, exec (.sw a b i) s = .next t ∧
      OnlyStores pa.toNat [BitVec.ofNat 8 ((s.reg b).toNat / 16777216), BitVec.ofNat 8 ((s.reg b).toNat / 65536),
        BitVec.ofNat 8 ((s.reg b).toNat / 256), BitVec.ofNat 8 (s.reg b).toNat] s t) ∧
    (ReachesRam true (s.effectiveAddress a i) .half pa s → ∃ t, exec (.sh a b i) s = .next t ∧
      OnlyStores pa.toNat [BitVec.ofNat 8 ((s.reg b).toNat / 256), BitVec.ofNat 8 (s.reg b).toNat] s t) ∧
    (ReachesRam true (s.effectiveAddress a i) .byte pa s → ∃ t, exec (.sb a b i) s = .next t ∧
      OnlyStores pa.toNat [BitVec.ofNat 8 (s.reg b).toNat] s t)

/-- The exceptions of a load or store, in their order: alignment, then what translation raises, then a bus error; the
saved pc is the instruction's own and the faulting address is virtual (44_load_store.md R240). -/
def Obligations.AccessExceptions : Prop :=
  ∀ (i : Instr) (x : DataAccess) (s : State) (va : Word), dataAccess i = some x →
    va = BitVec.ofInt 32 ((s.reg x.base).toInt + x.offset.toInt) →
    (va.toNat % widthBytes x.width ≠ 0 →
      ∃ t, exec i s = .next t ∧ Enters (.alignment va) s.pc s t ∧ t.device = s.device) ∧
    (∀ c, va.toNat % widthBytes x.width = 0 → translate .data x.isWrite va s = .error c →
      ∃ t, exec i s = .next t ∧ Enters c s.pc s t ∧ t.device = s.device ∧ c.address = some va) ∧
    (∀ pa, va.toNat % widthBytes x.width = 0 → translate .data x.isWrite va s = .ok pa →
      regionOf s.cfg pa x.width = .unmapped →
      ∃ t, exec i s = .next t ∧ Enters (.busError va) s.pc s t ∧ t.device = s.device)

/-- A load or store that reaches the peripheral: the peripheral sees the access once; when it refuses, the bus error is
entered; when it accepts, the instruction goes on, memory and SR are as before, and a load puts the answer into its
destination (20_memory.md R68, R69). What the peripheral answers is free, and the record
of its accesses is the model's (notes/assumptions/4.md, notes/assumptions/17.md). -/
def Obligations.DeviceAccesses : Prop :=
  ∀ (i : Instr) (x : DataAccess) (va pa : Word) (s : State), dataAccess i = some x →
    va = s.effectiveAddress x.base x.offset → va.toNat % widthBytes x.width = 0 →
    translate .data x.isWrite va s = .ok pa → regionOf s.cfg pa x.width = .device →
    (x.isWrite = false → ∃ t, exec i s = .next t ∧
      match Config.deviceRead s.device pa x.width with
      | none => Enters (.busError va) s.pc s t ∧ t.device = .read pa x.width none :: s.device
      | some raw => ∃ answer, answer.toNat = raw.toNat % 2 ^ (8 * widthBytes x.width) ∧ LoadsAnswer i x answer s t ∧
          t.sr = s.sr ∧ SameSpecials s t ∧ SameMemory s t ∧ GoesOn s t ∧
          SameOuter { s with device := .read pa x.width (some answer) :: s.device } t) ∧
    (∀ v, OffersValue i x v s → ∃ t, exec i s = .next t ∧
      if Config.deviceAccepts s.device pa x.width v then
        SameRegs s t ∧ t.sr = s.sr ∧ SameSpecials s t ∧ SameMemory s t ∧ GoesOn s t ∧
          SameOuter { s with device := .write pa x.width v true :: s.device } t
      else Enters (.busError va) s.pc s t ∧ t.device = .write pa x.width v false :: s.device)

/-- A store followed by a load of the same width at the same address, both reaching the same RAM address, gives the stored
bits back, zero- or sign-extended (44_load_store.md R239). -/
def Obligations.StoreThenLoad : Prop :=
  ∀ (a b d : Reg) (i : BitVec 16) (pa : Word) (s : State), s.mem.wf = true →
    (ReachesRam true (s.effectiveAddress a i) .word pa s → ReachesRam false (s.effectiveAddress a i) .word pa s →
      ∃ t u, exec (.sw a b i) s = .next t ∧ exec (.lwz d a i) t = .next u ∧ u.reg d = s.reg b) ∧
    (ReachesRam true (s.effectiveAddress a i) .half pa s → ReachesRam false (s.effectiveAddress a i) .half pa s →
      ∃ t u v, exec (.sh a b i) s = .next t ∧ exec (.lhz d a i) t = .next u ∧ exec (.lhs d a i) t = .next v ∧
        (u.reg d).toNat = (s.reg b).toNat % 65536 ∧ (v.reg d).toInt = Int.bmod (s.reg b).toNat 65536) ∧
    (ReachesRam true (s.effectiveAddress a i) .byte pa s → ReachesRam false (s.effectiveAddress a i) .byte pa s →
      ∃ t u v, exec (.sb a b i) s = .next t ∧ exec (.lbz d a i) t = .next u ∧ exec (.lbs d a i) t = .next v ∧
        (u.reg d).toNat = (s.reg b).toNat % 256 ∧ (v.reg d).toInt = Int.bmod (s.reg b).toNat 256)

/-- A user-mode instruction with data translation on changes a byte of memory only in a page that a data TLB entry maps
with the user write enable (20_memory.md R74). -/
def Obligations.UserStoresStayOnWritablePages : Prop :=
  ∀ (i : Instr) (s t : State), s.sm = false → s.dme = true → s.mem.wf = true → exec i s = .next t →
    ∀ p : Nat, t.mem.read p ≠ s.mem.read p →
      ∃ (set : Nat) (mr tr : Word), set < 64 ∧ s.dmmu.mr[set]? = some mr ∧ s.dmmu.tr[set]? = some tr ∧
        mr.getLsbD 0 = true ∧ tr.getLsbD 7 = true ∧ tr.toNat / 8192 = p / 8192

/-! ### Special registers -/

/-- `l.mfspr` where it may execute reads every register of the table that has one value: the plain ones, and the
match and translate registers of both MMUs (45_system.md R258). -/
def Obligations.SpecialRegisterReads : Prop :=
  ∀ (d a : Reg) (k : BitVec 16) (s : State), SystemAllowed s →
    (∀ n v, (n, v) ∈ plainSprs s → sprNumber a k s = n → ∃ t, exec (.mfspr d a k) s = .next t ∧ OnlyWrites d v s t) ∧
    (∀ set < 64, ∀ v, s.dmmu.mr[set]? = some v → sprNumber a k s = 0x0A00 + set →
      ∃ t, exec (.mfspr d a k) s = .next t ∧ OnlyWrites d v s t) ∧
    (∀ set < 64, ∀ v, s.dmmu.tr[set]? = some v → sprNumber a k s = 0x0A80 + set →
      ∃ t, exec (.mfspr d a k) s = .next t ∧ OnlyWrites d v s t) ∧
    (∀ set < 64, ∀ v, s.immu.mr[set]? = some v → sprNumber a k s = 0x1200 + set →
      ∃ t, exec (.mfspr d a k) s = .next t ∧ OnlyWrites d v s t) ∧
    (∀ set < 64, ∀ v, s.immu.tr[set]? = some v → sprNumber a k s = 0x1280 + set →
      ∃ t, exec (.mfspr d a k) s = .next t ∧ OnlyWrites d v s t)

/-- `l.mfspr` of SR or ESR0 returns the stored bits that have a function, and a drawn value in the others (10_state.md
R28); drawing uses up one value and changes nothing else. The drawn value is free
(notes/assumptions/3.md). -/
def Obligations.StatusReadsDrawTheOtherBits : Prop :=
  ∀ (d a : Reg) (k : BitVec 16) (s : State), SystemAllowed s →
    sprNumber a k s = 0x0011 ∨ sprNumber a k s = 0x0040 →
    ∃ t v, exec (.mfspr d a k) s = .next t ∧ OnlyWrites d v { s with draws := s.draws + 1 } t ∧
      ∀ n < 32, v.getLsbD n =
        if n ∈ [0, 1, 2, 5, 6, 9, 13, 15] then (if sprNumber a k s = 0x0011 then s.sr else s.esr0).getLsbD n
        else (Config.drawn s.draws).getLsbD n

/-- `l.mtspr` where it may execute writes the registers the table marks writable, each alone and whole, but that FO
stays 1 in SR (45_system.md R259). -/
def Obligations.SpecialRegisterWrites : Prop :=
  ∀ (a b : Reg) (k : BitVec 16) (s : State), SystemAllowed s →
    (sprNumber a k s = 0x0011 → exec (.mtspr a b k) s = .next (thenNext s { s with sr := s.reg b ||| 0x8000#32 })) ∧
    (sprNumber a k s = 0x0020 → exec (.mtspr a b k) s = .next (thenNext s { s with epcr0 := s.reg b })) ∧
    (sprNumber a k s = 0x0030 → exec (.mtspr a b k) s = .next (thenNext s { s with eear0 := s.reg b })) ∧
    (sprNumber a k s = 0x0040 → exec (.mtspr a b k) s = .next (thenNext s { s with esr0 := s.reg b })) ∧
    (sprNumber a k s = 0x0800 →
      exec (.mtspr a b k) s = .next (thenNext s { s with dmmu := { s.dmmu with cr := s.reg b } })) ∧
    (sprNumber a k s = 0x1000 →
      exec (.mtspr a b k) s = .next (thenNext s { s with immu := { s.immu with cr := s.reg b } })) ∧
    (∀ set : Fin 64, sprNumber a k s = 0x0A00 + set → exec (.mtspr a b k) s =
      .next (thenNext s { s with dmmu := { s.dmmu with mr := s.dmmu.mr.set set (s.reg b) } })) ∧
    (∀ set : Fin 64, sprNumber a k s = 0x0A80 + set → exec (.mtspr a b k) s =
      .next (thenNext s { s with dmmu := { s.dmmu with tr := s.dmmu.tr.set set (s.reg b) } })) ∧
    (∀ set : Fin 64, sprNumber a k s = 0x1200 + set → exec (.mtspr a b k) s =
      .next (thenNext s { s with immu := { s.immu with mr := s.immu.mr.set set (s.reg b) } })) ∧
    (∀ set : Fin 64, sprNumber a k s = 0x1280 + set → exec (.mtspr a b k) s =
      .next (thenNext s { s with immu := { s.immu with tr := s.immu.tr.set set (s.reg b) } })) ∧
    (sprNumber a k s = 0x4800 → exec (.mtspr a b k) s = .next (thenNext s { s with picmr := s.reg b })) ∧
    (sprNumber a k s = 0x4802 → s.cfg.picsrWrite = .store →
      exec (.mtspr a b k) s = .next (thenNext s { s with picsr := s.reg b })) ∧
    (sprNumber a k s = 0x5000 → exec (.mtspr a b k) s = .next (thenNext s { s with ttmr := s.reg b })) ∧
    (sprNumber a k s = 0x5001 → exec (.mtspr a b k) s = .next (thenNext s { s with ttcr := s.reg b }))

/-- A write of a read-only register is ignored: the configuration registers, and PICSR when PICSR_WRITE is `ignore`
(10_state.md R48). -/
def Obligations.ReadOnlySpecialRegisters : Prop :=
  ∀ (a b : Reg) (k : BitVec 16) (s : State), SystemAllowed s →
    (sprNumber a k s ≤ 4 ∨ (sprNumber a k s = 0x4802 ∧ s.cfg.picsrWrite = .ignore)) →
    ∃ t, exec (.mtspr a b k) s = .next t ∧ OnlyGoesOn s t

/-- An address outside the table reads as zero and ignores writes, without an exception (10_state.md R47). -/
def Obligations.UnnamedSpecialRegisters : Prop :=
  ∀ (d a b : Reg) (k : BitVec 16) (s : State), SystemAllowed s → ¬IsNamedSpr (sprNumber a k s) →
    (∃ t, exec (.mfspr d a k) s = .next t ∧ OnlyWrites d 0#32 s t) ∧
    (∃ t, exec (.mtspr a b k) s = .next t ∧ OnlyGoesOn s t)

/-- The indices of TLB sets 64 to 127 (10_state.md R43): a read gives a drawn value, and a write has no effect on any later
translation and on nothing else a program can read. The drawn value is free, and drawing it by a counter is the model's
coding (notes/assumptions/3.md); the storage of these sets is the model's (notes/assumptions/15.md). -/
def Obligations.UnarchitectedTlbSets : Prop :=
  ∀ (d a b : Reg) (k : BitVec 16) (s : State), SystemAllowed s →
    (∃ base ∈ [0x0A40, 0x0AC0, 0x1240, 0x12C0], base ≤ sprNumber a k s ∧ sprNumber a k s < base + 64) →
    (∃ t, exec (.mfspr d a k) s = .next t ∧ OnlyWrites d (Config.drawn s.draws) { s with draws := s.draws + 1 } t) ∧
    (∃ t, exec (.mtspr a b k) s = .next t ∧ GoesOn s t ∧ SameRegs s t ∧ t.sr = s.sr ∧ SameMemory s t ∧ SameOuter s t ∧
      t.epcr0 = s.epcr0 ∧ t.eear0 = s.eear0 ∧ t.esr0 = s.esr0 ∧ t.ttmr = s.ttmr ∧ t.ttcr = s.ttcr ∧
      t.picmr = s.picmr ∧ t.picsr = s.picsr ∧ t.dmmu.cr = s.dmmu.cr ∧ t.immu.cr = s.immu.cr ∧
      (∀ set < 64, t.dmmu.mr[set]? = s.dmmu.mr[set]? ∧ t.dmmu.tr[set]? = s.dmmu.tr[set]? ∧
        t.immu.mr[set]? = s.immu.mr[set]? ∧ t.immu.tr[set]? = s.immu.tr[set]?) ∧
      ∀ side isWrite va, translate side isWrite va t = translate side isWrite va s)

/-- `l.mfspr`, `l.mtspr` and `l.rfe` in user mode with USER_SYSTEM_ACCESS `refuse` are refused (60_exceptions.md R296). -/
def Obligations.UserSystemAccessRefused : Prop :=
  ∀ (d a b : Reg) (k : BitVec 16) (s : State), s.sr.getLsbD 0 = false → s.cfg.userSystemAccess = .refuse →
    exec (.mfspr d a k) s = .refused .userMfspr ∧ exec (.mtspr a b k) s = .refused .userMtspr ∧
      exec .rfe s = .refused .userRfe

/-- In user mode with USER_SYSTEM_ACCESS `refuse` an instruction that gives a next state either takes an exception, or
leaves every special register as it was, and SR as well but for F (60_exceptions.md R295, R297). -/
def Obligations.UserModeKeepsSystemState : Prop :=
  ∀ (i : Instr) (s t : State), s.sr.getLsbD 0 = false → s.cfg.userSystemAccess = .refuse → exec i s = .next t →
    (∃ c savedPC, Enters c savedPC s t) ∨
      (SameSpecials s t ∧ (∀ k, k ≠ 9 → t.sr.getLsbD k = s.sr.getLsbD k) ∧ t.run = s.run)

/-- The mode changes to user only by a write of SR, when the value written has SM 0 (60_exceptions.md R295): an instruction
does it only as `l.mtspr` of SR or `l.rfe`, a call of the host only as SetSpReg of SR, and a cycle only by the instruction
it executes, in a state with the exception registers, the general registers and SR of the cycle's start. -/
def Obligations.SupervisorModeIsLeftOnlyBySrWrites : Prop :=
  (∀ (i : Instr) (s t : State), s.sr.getLsbD 0 = true → exec i s = .next t → t.sr.getLsbD 0 = false →
    (i = .rfe ∧ s.esr0.getLsbD 0 = false) ∨
      ∃ a b k, i = .mtspr a b k ∧ sprNumber a k s = 0x0011 ∧ (s.reg b).getLsbD 0 = false) ∧
    (∀ (c : HostCall) (s t : State), s.sr.getLsbD 0 = true → hostCall c s = .next t → t.sr.getLsbD 0 = false →
      ∃ v : Word, c = .setSpr 0x0011#16 v ∧ v.getLsbD 0 = false) ∧
    (∀ s t : State, s.sr.getLsbD 0 = true → cycle s = .next t → t.sr.getLsbD 0 = false →
      ∃ w u i, fetch (tickPhase s) = .ok w u ∧ decode w = .ok i ∧ exec i u = .next t ∧ u.sr = s.sr ∧
        u.esr0 = s.esr0 ∧ SameRegs s u)

/-! ### Refused rows -/

/-- Each row whose presence no source shows is refused, in every state, under its own name (30_encoding.md R113). -/
def Obligations.RefusedRowsAreRefused : Prop :=
  ∀ s : State,
    exec .adrp s = .refused (.presenceUnknown .adrp) ∧ exec .macrc s = .refused (.presenceUnknown .macrc) ∧
    exec .lv s = .refused (.presenceUnknown .vector) ∧ exec .maci s = .refused (.presenceUnknown .maci) ∧
    exec .lf s = .refused (.presenceUnknown .lf) ∧ exec .lwa s = .refused (.presenceUnknown .lwa) ∧
    exec .cust1 s = .refused (.presenceUnknown .cust1) ∧ exec .cust2 s = .refused (.presenceUnknown .cust2) ∧
    exec .cust3 s = .refused (.presenceUnknown .cust3) ∧ exec .cust4 s = .refused (.presenceUnknown .cust4) ∧
    exec .cust5 s = .refused (.presenceUnknown .cust5) ∧ exec .cust6 s = .refused (.presenceUnknown .cust6) ∧
    exec .cust7 s = .refused (.presenceUnknown .cust7) ∧ exec .cust8 s = .refused (.presenceUnknown .cust8) ∧
    exec .ld s = .refused (.presenceUnknown .ld) ∧ exec .addic s = .refused (.presenceUnknown .addic) ∧
    exec .mac s = .refused (.presenceUnknown .mac) ∧ exec .lfp s = .refused (.presenceUnknown .floatingPoint) ∧
    exec .swa s = .refused (.presenceUnknown .swa) ∧ exec .sd s = .refused (.presenceUnknown .sd) ∧
    exec .addc s = .refused (.presenceUnknown .addc) ∧ exec .muld s = .refused (.presenceUnknown .muld) ∧
    exec .muldu s = .refused (.presenceUnknown .muldu) ∧ exec .extws s = .refused (.presenceUnknown .extws) ∧
    exec .extwz s = .refused (.presenceUnknown .extwz)

/-! ### The host -/

/-- The sample at the start of a Run call (60_exceptions.md R290): PICSR takes the word, whose bit UART_IRQ_BIT says whether
the peripheral asserts its line and whose other bits are 0 (R293); a rising edge of the line, permitted by PICMR and with
SR.IEE set, takes the external interrupt and stops the call; else the call goes on with its budget, a budget of none being
spent at once (notes/assumptions/19.md). The list of calls to come and the run status are the model's bookkeeping
(notes/assumptions/10.md). -/
def Obligations.RunCallSamplesInterrupts : Prop :=
  ∀ (n : Nat) (asserted : Bool) (rest : List HostCall) (s : State), s.inRun = false → s.calls = .run n asserted :: rest →
    ∃ t w, step s = .next t ∧ (∀ k < 32, w.getLsbD k = (asserted && decide (k = s.cfg.uartIrqBit.val))) ∧
      t.picsr = w ∧ t.calls = rest ∧
      if asserted = true ∧ s.picsr.getLsbD s.cfg.uartIrqBit = false ∧ s.picmr.getLsbD s.cfg.uartIrqBit = true ∧
          s.sr.getLsbD 2 = true then
        Enters .external s.pc { s with picsr := w, calls := rest } t ∧ t.device = s.device
      else t = { s with picsr := w, calls := rest, run := if n = 0 then .returned .continue else .running n }

/-- A line that stays at 1 gives one dispatch (60_exceptions.md R290, R292): a sample of any word leaves that word in PICSR; a
line that is 1 in PICSR gives no edge at its bit; so a sample at which every permitted line of the word is 1 in PICSR
already changes PICSR only, a sample of the word that PICSR holds changes nothing, in every state, and a Run call in which
the peripheral's line is 1 in PICSR dispatches nothing. The run status and the list of calls are the model's bookkeeping
(notes/assumptions/10.md). -/
def Obligations.HeldLineDispatchesOnce : Prop :=
  (∀ (w : Word) (s : State), (sampleInterrupts w s).picsr = w) ∧
    (∀ (w : Word) (t : State) (k : Nat), t.picsr.getLsbD k = true → (t.edges w).getLsbD k = false) ∧
    (∀ (w : Word) (t : State),
      (∀ k < 32, w.getLsbD k = true → t.picmr.getLsbD k = true → t.picsr.getLsbD k = true) →
      sampleInterrupts w t = { t with picsr := w }) ∧
    (∀ (w : Word) (t : State), t.picsr = w → sampleInterrupts w t = t) ∧
    (∀ (n : Nat) (asserted : Bool) (rest : List HostCall) (s : State), s.inRun = false →
      s.calls = .run n asserted :: rest → s.picsr.getLsbD s.cfg.uartIrqBit = true →
      ∃ t, step s = .next t ∧ t.pc = s.pc ∧ t.sr = s.sr ∧ t.run ≠ .returned .stop ∧
        t.picsr.getLsbD s.cfg.uartIrqBit = asserted)

/-- The Reset call, from every state between Run calls: every element at its reset value, memory and the parameters
untouched (70_reset_and_hazards.md R320, R323). -/
def Obligations.ResetCallRestoresResetValues : Prop :=
  ∀ (rest : List HostCall) (s : State), s.inRun = false → s.calls = .reset :: rest →
    ∃ t, step s = .next t ∧ (∀ r, t.reg r = 0#32) ∧ t.pc = 0#32 ∧ t.sr = 0x00008001#32 ∧ t.df = false ∧ t.dnpc = 0#32 ∧
      t.epcr0 = 0#32 ∧ t.eear0 = 0#32 ∧ t.esr0 = 0#32 ∧ t.picmr = 0#32 ∧ t.picsr = 0#32 ∧ t.ttmr = 0#32 ∧
      t.ttcr = 0#32 ∧ t.dmmu.cr = 0#32 ∧ t.immu.cr = 0#32 ∧
      (∀ set < 64, t.dmmu.mr[set]? = some 0#32 ∧ t.dmmu.tr[set]? = some 0#32 ∧ t.immu.mr[set]? = some 0#32 ∧
        t.immu.tr[set]? = some 0#32) ∧
      SameMemory s t ∧ t.cfg = s.cfg ∧ t.device = s.device

/-- The budget of a Run call: a step uses up one cycle of it, and the call returns `stop` by a dispatch or the halt
word, or `continue` after its last cycle (60_exceptions.md R301). The bookkeeping is the model's choice
(notes/assumptions/10.md). -/
def Obligations.RunCallSpendsItsBudget : Prop :=
  ∀ (n : Nat) (s t : State), s.run = .running (n + 1) → step s = .next t →
    t.calls = s.calls ∧
      ((t.run = .returned .stop ∧ (t.halted = true ∨ ∃ c, t.pc = vectorOf c ∧ t.sr = 0x00008001#32)) ∨
        t.run = if n = 0 then .returned .continue else .running n)
end

