-- ==== Sys2Proof/Laws/Memory.lean ====
section
/-! SUPPORT. The laws of memory: what a read gives after a write, that every write keeps the canonical form and stays within
a bound, and that two canonical memories that read alike are equal. -/

namespace Sys2Proof.Machine

@[simp] theorem read_nil (a : Nat) : Memory.read [] a = Memory.unwritten := rfl

theorem read_cons (k : Nat) (b : Byte) (rest : Memory) (a : Nat) :
    Memory.read ((k, b) :: rest) a = if a = k then b else Memory.read rest a := rfl

/-- An address below every entry reads as unwritten. -/
theorem read_of_all_lt {m : Memory} {a : Nat} (h : m.all (fun c => decide (a < c.1)) = true) :
    Memory.read m a = Memory.unwritten := by
  induction m with
  | nil => rfl
  | cons c rest ih =>
    obtain ⟨k, b⟩ := c
    simp only [List.all_cons, Bool.and_eq_true, decide_eq_true_eq] at h
    rw [read_cons, if_neg (by omega), ih h.2]

theorem all_lt_mono {m : Memory} {a k : Nat} (hak : a ≤ k) (h : m.all (fun c => decide (k < c.1)) = true) :
    m.all (fun c => decide (a < c.1)) = true := by
  simp only [List.all_eq_true, decide_eq_true_eq] at h ⊢
  intro c hc
  have := h c hc
  omega

theorem wf_cons {k : Nat} {b : Byte} {rest : Memory} :
    Memory.wf ((k, b) :: rest) = true ↔
      b ≠ Memory.unwritten ∧ rest.all (fun c => decide (k < c.1)) = true ∧ Memory.wf rest = true := by
  simp [Memory.wf, and_assoc]

/-- A read after a write: the value written, or what was there. -/
theorem read_write {m : Memory} (hm : Memory.wf m = true) (a : Nat) (v : Byte) (x : Nat) :
    Memory.read (Memory.write m a v) x = if x = a then v else Memory.read m x := by
  induction m with
  | nil =>
    by_cases hv : v = Memory.unwritten
    · simp [Memory.write, hv]
    · simp [Memory.write, hv, read_cons]
  | cons c rest ih =>
    obtain ⟨k, b⟩ := c
    obtain ⟨_, hlt, hrest⟩ := wf_cons.1 hm
    have below : ∀ y, y ≤ k → Memory.read rest y = Memory.unwritten := fun y hy => read_of_all_lt (all_lt_mono hy hlt)
    unfold Memory.write
    by_cases h1 : a < k
    · by_cases hv : v = Memory.unwritten
      · by_cases hx : x = a
        · subst hx
          simp [h1, hv, read_cons, Nat.ne_of_lt h1, below x (Nat.le_of_lt h1)]
        · simp [h1, hv, hx]
      · simp [h1, hv, read_cons]
    · by_cases h2 : a = k
      · subst h2
        by_cases hv : v = Memory.unwritten
        · by_cases hx : x = a
          · subst hx
            simp [hv, below x (Nat.le_refl x)]
          · simp [hv, hx, read_cons]
        · by_cases hx : x = a
          · subst hx
            simp [hv, read_cons]
          · simp [hv, hx, read_cons]
      · have := ih hrest
        by_cases hx : x = k
        · subst hx
          simp [h1, h2, read_cons, Ne.symm h2]
        · simp [h1, h2, read_cons, hx, this]

/-- A write lists no address but the written one and those listed before. -/
theorem write_all {m : Memory} {P : Nat → Bool} {a : Nat} {v : Byte} (ha : P a = true)
    (h : m.all (fun c => P c.1) = true) : (Memory.write m a v).all (fun c => P c.1) = true := by
  induction m with
  | nil => unfold Memory.write; split <;> simp [ha]
  | cons c rest ih =>
    obtain ⟨j, b⟩ := c
    have hc := h
    rw [List.all_cons, Bool.and_eq_true] at hc
    unfold Memory.write
    split_ifs
    · exact h
    · rw [List.all_cons, Bool.and_eq_true]
      exact ⟨ha, h⟩
    · exact hc.2
    · rw [List.all_cons, Bool.and_eq_true]
      exact ⟨ha, hc.2⟩
    · rw [List.all_cons, Bool.and_eq_true]
      exact ⟨hc.1, ih hc.2⟩

/-- A write keeps the canonical form. -/
theorem wf_write {m : Memory} (hm : Memory.wf m = true) (a : Nat) (v : Byte) :
    Memory.wf (Memory.write m a v) = true := by
  induction m with
  | nil =>
    by_cases hv : v = Memory.unwritten <;> simp [Memory.write, hv, Memory.wf]
  | cons c rest ih =>
    obtain ⟨k, b⟩ := c
    obtain ⟨hb, hlt, hrest⟩ := wf_cons.1 hm
    unfold Memory.write
    split_ifs with h1 h2 h3 h4
    · exact hm
    · refine wf_cons.2 ⟨h2, ?_, hm⟩
      simp [h1, all_lt_mono (Nat.le_of_lt h1) hlt]
    · exact hrest
    · exact wf_cons.2 ⟨h4, h3 ▸ hlt, hrest⟩
    · exact wf_cons.2 ⟨hb, write_all (P := fun j => decide (k < j)) (by simp; omega) hlt, ih hrest⟩

theorem below_write {m : Memory} {n a : Nat} {v : Byte} (ha : a < n) (h : m.below n = true) :
    (Memory.write m a v).below n = true :=
  write_all (P := fun j => decide (j < n)) (by simpa using ha) h

/-- Two canonical memories that read alike at every address are equal. -/
theorem memory_ext {m n : Memory} (hm : Memory.wf m = true) (hn : Memory.wf n = true)
    (h : ∀ a, Memory.read m a = Memory.read n a) : m = n := by
  induction m generalizing n with
  | nil =>
    cases n with
    | nil => rfl
    | cons c rest =>
      obtain ⟨k, b⟩ := c
      have := h k
      simp [read_cons] at this
      exact absurd this.symm (wf_cons.1 hn).1
  | cons c rest ih =>
    obtain ⟨k, b⟩ := c
    obtain ⟨hb, hlt, hrest⟩ := wf_cons.1 hm
    cases n with
    | nil =>
      have := h k
      simp [read_cons] at this
      exact absurd this hb
    | cons c' rest' =>
      obtain ⟨k', b'⟩ := c'
      obtain ⟨hb', hlt', hrest'⟩ := wf_cons.1 hn
      have hk : k = k' := by
        by_contra hne
        rcases Nat.lt_or_gt_of_ne hne with hl | hl
        · have := h k
          rw [read_cons, if_pos rfl, read_cons, if_neg hne, read_of_all_lt (all_lt_mono (Nat.le_of_lt hl) hlt')] at this
          exact hb this
        · have := h k'
          rw [read_cons, if_neg (Ne.symm hne), read_cons, if_pos rfl,
            read_of_all_lt (all_lt_mono (Nat.le_of_lt hl) hlt)] at this
          exact hb' this.symm
      subst hk
      have hbb : b = b' := by simpa [read_cons] using h k
      subst hbb
      congr 1
      apply ih hrest hrest'
      intro a
      by_cases ha : a = k
      · subst ha
        rw [read_of_all_lt hlt, read_of_all_lt hlt']
      · simpa [read_cons, ha] using h a

/-! ### Runs of bytes -/

theorem wf_writeBytes {m : Memory} (hm : Memory.wf m = true) (a : Nat) (bs : List Byte) :
    Memory.wf (Memory.writeBytes m a bs) = true := by
  induction bs generalizing m a with
  | nil => exact hm
  | cons b bs ih => exact ih (wf_write hm a b) (a + 1)

theorem below_writeBytes {m : Memory} {n a : Nat} {bs : List Byte} (ha : a + bs.length ≤ n) (h : m.below n = true) :
    (Memory.writeBytes m a bs).below n = true := by
  induction bs generalizing m a with
  | nil => exact h
  | cons b bs ih =>
    simp only [List.length_cons] at ha
    exact ih (a := a + 1) (by omega) (below_write (by omega) h)

/-- A read after a run of bytes was written: the byte of the run there, or what was there. -/
theorem read_writeBytes {m : Memory} (hm : Memory.wf m = true) (a : Nat) (bs : List Byte) (x : Nat) :
    Memory.read (Memory.writeBytes m a bs) x =
      if h : a ≤ x ∧ x < a + bs.length then bs[x - a]'(by omega) else Memory.read m x := by
  induction bs generalizing m a with
  | nil =>
    have : ¬ (a ≤ x ∧ x < a) := by omega
    simp [Memory.writeBytes, this]
  | cons b bs ih =>
    rw [Memory.writeBytes, ih (wf_write hm a b) (a + 1), read_write hm]
    by_cases hx : x = a
    · subst hx
      simp
    · by_cases hin : a + 1 ≤ x ∧ x < a + 1 + bs.length
      · have h1 : a ≤ x ∧ x < a + (b :: bs).length := by simp only [List.length_cons]; omega
        have h2 : x - a = (x - (a + 1)) + 1 := by omega
        simp only [dif_pos hin, dif_pos h1, h2, List.getElem_cons_succ]
      · have h1 : ¬ (a ≤ x ∧ x < a + (b :: bs).length) := by simp only [List.length_cons]; omega
        rw [dif_neg hin, dif_neg h1, if_neg hx]

@[simp] theorem storedBytes_length (v : Word) (w : Width) : (storedBytes v w).length = widthBytes w := by
  cases w <;> rfl

/-- A write of a value changes no byte outside its own. -/
theorem read_writeValue_of_outside {m : Memory} (hm : Memory.wf m = true) {a x : Nat} {w : Width} (v : Word)
    (h : x < a ∨ a + widthBytes w ≤ x) : Memory.read (m.writeValue a w v) x = Memory.read m x := by
  rw [Memory.writeValue, read_writeBytes hm, dif_neg]
  simp only [storedBytes_length]
  omega

/-- The bytes of a written value, the most significant first (20_memory.md R63). -/
theorem read_writeValue_inside {m : Memory} (hm : Memory.wf m = true) {a k : Nat} {w : Width} (v : Word)
    (h : k < widthBytes w) :
    Memory.read (m.writeValue a w v) (a + k) = v.extractLsb' ((widthBytes w - 1 - k) * 8) 8 := by
  rw [Memory.writeValue, read_writeBytes hm, dif_pos (by simp only [storedBytes_length]; omega)]
  cases w
  · have : k = 0 := by simp only [widthBytes] at h; omega
    subst this
    simp [storedBytes, widthBytes]
  · have : k = 0 ∨ k = 1 := by simp only [widthBytes] at h; omega
    rcases this with rfl | rfl <;> simp [storedBytes, widthBytes]
  · have : k = 0 ∨ k = 1 ∨ k = 2 ∨ k = 3 := by simp only [widthBytes] at h; omega
    rcases this with rfl | rfl | rfl | rfl <;> simp [storedBytes, widthBytes]

theorem wf_writeValue {m : Memory} (hm : Memory.wf m = true) (a : Nat) (w : Width) (v : Word) :
    Memory.wf (m.writeValue a w v) = true := wf_writeBytes hm a _

/-- A value read back where it was written with the same width (20_memory.md R64). -/
theorem readValue_writeValue {m : Memory} (hm : Memory.wf m = true) (a : Nat) (w : Width) (v : Word) :
    (m.writeValue a w v).readValue a w = lowBits v w := by
  have inside := fun k (h : k < widthBytes w) => read_writeValue_inside hm (a := a) v h
  cases w
  · have h0 := inside 0 (by decide)
    simp only [Nat.add_zero] at h0
    simp [Memory.readValue, lowBits, lowByte, h0, widthBytes]
  · have h0 := inside 0 (by decide)
    have h1 := inside 1 (by decide)
    simp only [Nat.add_zero] at h0
    simp only [Memory.readValue, lowBits, lowHalf, h0, h1, widthBytes, zext16]
    congr 1
    exact BitVec.extractLsb'_append_extractLsb'_eq_extractLsb' (by decide)
  · have h0 := inside 0 (by decide)
    have h1 := inside 1 (by decide)
    have h2 := inside 2 (by decide)
    have h3 := inside 3 (by decide)
    simp only [Nat.add_zero] at h0
    simp only [Memory.readValue, lowBits, h0, h1, h2, h3, widthBytes]
    ext k hk
    simp only [BitVec.getElem_append, BitVec.getElem_extractLsb']
    repeat' split
    all_goals (rw [BitVec.getLsbD_eq_getElem (by omega)]; congr 1; omega)

/-- The memory after reset is in its canonical form. -/
theorem wf_reset : State.reset.mem.wf = true := rfl

end Sys2Proof.Machine
end

