-- ==== Sys2Proof/Laws/State.lean ====
section
/-! SUPPORT. The small lemmas of the state: for every update of the state one lemma per field, true by computation, and
the reads of a general register. -/

namespace Sys2Proof.Machine

/-! ### setReg -/

@[simp] theorem setReg_gpr (s : State) (r : Reg) (v : Word) : (s.setReg r v).gpr = s.gpr.set r.val v := rfl
@[simp] theorem setReg_pc (s : State) (r : Reg) (v : Word) : (s.setReg r v).pc = s.pc := rfl
@[simp] theorem setReg_df (s : State) (r : Reg) (v : Word) : (s.setReg r v).df = s.df := rfl
@[simp] theorem setReg_dnpc (s : State) (r : Reg) (v : Word) : (s.setReg r v).dnpc = s.dnpc := rfl
@[simp] theorem setReg_sr (s : State) (r : Reg) (v : Word) : (s.setReg r v).sr = s.sr := rfl
@[simp] theorem setReg_epcr0 (s : State) (r : Reg) (v : Word) : (s.setReg r v).epcr0 = s.epcr0 := rfl
@[simp] theorem setReg_eear0 (s : State) (r : Reg) (v : Word) : (s.setReg r v).eear0 = s.eear0 := rfl
@[simp] theorem setReg_esr0 (s : State) (r : Reg) (v : Word) : (s.setReg r v).esr0 = s.esr0 := rfl
@[simp] theorem setReg_ttmr (s : State) (r : Reg) (v : Word) : (s.setReg r v).ttmr = s.ttmr := rfl
@[simp] theorem setReg_ttcr (s : State) (r : Reg) (v : Word) : (s.setReg r v).ttcr = s.ttcr := rfl
@[simp] theorem setReg_picmr (s : State) (r : Reg) (v : Word) : (s.setReg r v).picmr = s.picmr := rfl
@[simp] theorem setReg_picsr (s : State) (r : Reg) (v : Word) : (s.setReg r v).picsr = s.picsr := rfl
@[simp] theorem setReg_dmmu (s : State) (r : Reg) (v : Word) : (s.setReg r v).dmmu = s.dmmu := rfl
@[simp] theorem setReg_immu (s : State) (r : Reg) (v : Word) : (s.setReg r v).immu = s.immu := rfl
@[simp] theorem setReg_mem (s : State) (r : Reg) (v : Word) : (s.setReg r v).mem = s.mem := rfl
@[simp] theorem setReg_cfg (s : State) (r : Reg) (v : Word) : (s.setReg r v).cfg = s.cfg := rfl
@[simp] theorem setReg_device (s : State) (r : Reg) (v : Word) : (s.setReg r v).device = s.device := rfl
@[simp] theorem setReg_draws (s : State) (r : Reg) (v : Word) : (s.setReg r v).draws = s.draws := rfl
@[simp] theorem setReg_calls (s : State) (r : Reg) (v : Word) : (s.setReg r v).calls = s.calls := rfl
@[simp] theorem setReg_run (s : State) (r : Reg) (v : Word) : (s.setReg r v).run = s.run := rfl
@[simp] theorem setReg_halted (s : State) (r : Reg) (v : Word) : (s.setReg r v).halted = s.halted := rfl

/-! ### setFlag -/

@[simp] theorem setFlag_gpr (s : State) (f : Bool) : (s.setFlag f).gpr = s.gpr := rfl
@[simp] theorem setFlag_pc (s : State) (f : Bool) : (s.setFlag f).pc = s.pc := rfl
@[simp] theorem setFlag_df (s : State) (f : Bool) : (s.setFlag f).df = s.df := rfl
@[simp] theorem setFlag_dnpc (s : State) (f : Bool) : (s.setFlag f).dnpc = s.dnpc := rfl
@[simp] theorem setFlag_sr (s : State) (f : Bool) : (s.setFlag f).sr = if f then s.sr ||| srF else s.sr &&& ~~~srF := rfl
@[simp] theorem setFlag_epcr0 (s : State) (f : Bool) : (s.setFlag f).epcr0 = s.epcr0 := rfl
@[simp] theorem setFlag_eear0 (s : State) (f : Bool) : (s.setFlag f).eear0 = s.eear0 := rfl
@[simp] theorem setFlag_esr0 (s : State) (f : Bool) : (s.setFlag f).esr0 = s.esr0 := rfl
@[simp] theorem setFlag_ttmr (s : State) (f : Bool) : (s.setFlag f).ttmr = s.ttmr := rfl
@[simp] theorem setFlag_ttcr (s : State) (f : Bool) : (s.setFlag f).ttcr = s.ttcr := rfl
@[simp] theorem setFlag_picmr (s : State) (f : Bool) : (s.setFlag f).picmr = s.picmr := rfl
@[simp] theorem setFlag_picsr (s : State) (f : Bool) : (s.setFlag f).picsr = s.picsr := rfl
@[simp] theorem setFlag_dmmu (s : State) (f : Bool) : (s.setFlag f).dmmu = s.dmmu := rfl
@[simp] theorem setFlag_immu (s : State) (f : Bool) : (s.setFlag f).immu = s.immu := rfl
@[simp] theorem setFlag_mem (s : State) (f : Bool) : (s.setFlag f).mem = s.mem := rfl
@[simp] theorem setFlag_cfg (s : State) (f : Bool) : (s.setFlag f).cfg = s.cfg := rfl
@[simp] theorem setFlag_device (s : State) (f : Bool) : (s.setFlag f).device = s.device := rfl
@[simp] theorem setFlag_draws (s : State) (f : Bool) : (s.setFlag f).draws = s.draws := rfl
@[simp] theorem setFlag_calls (s : State) (f : Bool) : (s.setFlag f).calls = s.calls := rfl
@[simp] theorem setFlag_run (s : State) (f : Bool) : (s.setFlag f).run = s.run := rfl
@[simp] theorem setFlag_halted (s : State) (f : Bool) : (s.setFlag f).halted = s.halted := rfl

/-! ### setSr -/

@[simp] theorem setSr_gpr (s : State) (v : Word) : (s.setSr v).gpr = s.gpr := rfl
@[simp] theorem setSr_pc (s : State) (v : Word) : (s.setSr v).pc = s.pc := rfl
@[simp] theorem setSr_df (s : State) (v : Word) : (s.setSr v).df = s.df := rfl
@[simp] theorem setSr_dnpc (s : State) (v : Word) : (s.setSr v).dnpc = s.dnpc := rfl
@[simp] theorem setSr_sr (s : State) (v : Word) : (s.setSr v).sr = v ||| srFO := rfl
@[simp] theorem setSr_epcr0 (s : State) (v : Word) : (s.setSr v).epcr0 = s.epcr0 := rfl
@[simp] theorem setSr_eear0 (s : State) (v : Word) : (s.setSr v).eear0 = s.eear0 := rfl
@[simp] theorem setSr_esr0 (s : State) (v : Word) : (s.setSr v).esr0 = s.esr0 := rfl
@[simp] theorem setSr_ttmr (s : State) (v : Word) : (s.setSr v).ttmr = s.ttmr := rfl
@[simp] theorem setSr_ttcr (s : State) (v : Word) : (s.setSr v).ttcr = s.ttcr := rfl
@[simp] theorem setSr_picmr (s : State) (v : Word) : (s.setSr v).picmr = s.picmr := rfl
@[simp] theorem setSr_picsr (s : State) (v : Word) : (s.setSr v).picsr = s.picsr := rfl
@[simp] theorem setSr_dmmu (s : State) (v : Word) : (s.setSr v).dmmu = s.dmmu := rfl
@[simp] theorem setSr_immu (s : State) (v : Word) : (s.setSr v).immu = s.immu := rfl
@[simp] theorem setSr_mem (s : State) (v : Word) : (s.setSr v).mem = s.mem := rfl
@[simp] theorem setSr_cfg (s : State) (v : Word) : (s.setSr v).cfg = s.cfg := rfl
@[simp] theorem setSr_device (s : State) (v : Word) : (s.setSr v).device = s.device := rfl
@[simp] theorem setSr_draws (s : State) (v : Word) : (s.setSr v).draws = s.draws := rfl
@[simp] theorem setSr_calls (s : State) (v : Word) : (s.setSr v).calls = s.calls := rfl
@[simp] theorem setSr_run (s : State) (v : Word) : (s.setSr v).run = s.run := rfl
@[simp] theorem setSr_halted (s : State) (v : Word) : (s.setSr v).halted = s.halted := rfl

/-! ### drawn -/

@[simp] theorem drawn_gpr (s : State) : (s.drawn).gpr = s.gpr := rfl
@[simp] theorem drawn_pc (s : State) : (s.drawn).pc = s.pc := rfl
@[simp] theorem drawn_df (s : State) : (s.drawn).df = s.df := rfl
@[simp] theorem drawn_dnpc (s : State) : (s.drawn).dnpc = s.dnpc := rfl
@[simp] theorem drawn_sr (s : State) : (s.drawn).sr = s.sr := rfl
@[simp] theorem drawn_epcr0 (s : State) : (s.drawn).epcr0 = s.epcr0 := rfl
@[simp] theorem drawn_eear0 (s : State) : (s.drawn).eear0 = s.eear0 := rfl
@[simp] theorem drawn_esr0 (s : State) : (s.drawn).esr0 = s.esr0 := rfl
@[simp] theorem drawn_ttmr (s : State) : (s.drawn).ttmr = s.ttmr := rfl
@[simp] theorem drawn_ttcr (s : State) : (s.drawn).ttcr = s.ttcr := rfl
@[simp] theorem drawn_picmr (s : State) : (s.drawn).picmr = s.picmr := rfl
@[simp] theorem drawn_picsr (s : State) : (s.drawn).picsr = s.picsr := rfl
@[simp] theorem drawn_dmmu (s : State) : (s.drawn).dmmu = s.dmmu := rfl
@[simp] theorem drawn_immu (s : State) : (s.drawn).immu = s.immu := rfl
@[simp] theorem drawn_mem (s : State) : (s.drawn).mem = s.mem := rfl
@[simp] theorem drawn_cfg (s : State) : (s.drawn).cfg = s.cfg := rfl
@[simp] theorem drawn_device (s : State) : (s.drawn).device = s.device := rfl
@[simp] theorem drawn_draws (s : State) : (s.drawn).draws = s.draws + 1 := rfl
@[simp] theorem drawn_calls (s : State) : (s.drawn).calls = s.calls := rfl
@[simp] theorem drawn_run (s : State) : (s.drawn).run = s.run := rfl
@[simp] theorem drawn_halted (s : State) : (s.drawn).halted = s.halted := rfl

/-! ### seqNext -/

@[simp] theorem seqNext_gpr (s : State) : (s.seqNext).gpr = s.gpr := rfl
@[simp] theorem seqNext_pc (s : State) : (s.seqNext).pc = if s.df then s.dnpc else s.pc + 4#32 := rfl
@[simp] theorem seqNext_df (s : State) : (s.seqNext).df = false := rfl
@[simp] theorem seqNext_dnpc (s : State) : (s.seqNext).dnpc = s.dnpc := rfl
@[simp] theorem seqNext_sr (s : State) : (s.seqNext).sr = s.sr := rfl
@[simp] theorem seqNext_epcr0 (s : State) : (s.seqNext).epcr0 = s.epcr0 := rfl
@[simp] theorem seqNext_eear0 (s : State) : (s.seqNext).eear0 = s.eear0 := rfl
@[simp] theorem seqNext_esr0 (s : State) : (s.seqNext).esr0 = s.esr0 := rfl
@[simp] theorem seqNext_ttmr (s : State) : (s.seqNext).ttmr = s.ttmr := rfl
@[simp] theorem seqNext_ttcr (s : State) : (s.seqNext).ttcr = s.ttcr := rfl
@[simp] theorem seqNext_picmr (s : State) : (s.seqNext).picmr = s.picmr := rfl
@[simp] theorem seqNext_picsr (s : State) : (s.seqNext).picsr = s.picsr := rfl
@[simp] theorem seqNext_dmmu (s : State) : (s.seqNext).dmmu = s.dmmu := rfl
@[simp] theorem seqNext_immu (s : State) : (s.seqNext).immu = s.immu := rfl
@[simp] theorem seqNext_mem (s : State) : (s.seqNext).mem = s.mem := rfl
@[simp] theorem seqNext_cfg (s : State) : (s.seqNext).cfg = s.cfg := rfl
@[simp] theorem seqNext_device (s : State) : (s.seqNext).device = s.device := rfl
@[simp] theorem seqNext_draws (s : State) : (s.seqNext).draws = s.draws := rfl
@[simp] theorem seqNext_calls (s : State) : (s.seqNext).calls = s.calls := rfl
@[simp] theorem seqNext_run (s : State) : (s.seqNext).run = s.run := rfl
@[simp] theorem seqNext_halted (s : State) : (s.seqNext).halted = s.halted := rfl

/-! ### seqJump -/

@[simp] theorem seqJump_gpr (s : State) (t : Word) : (s.seqJump t).gpr = s.gpr := rfl
@[simp] theorem seqJump_pc (s : State) (t : Word) : (s.seqJump t).pc = s.pc + 4#32 := rfl
@[simp] theorem seqJump_df (s : State) (t : Word) : (s.seqJump t).df = true := rfl
@[simp] theorem seqJump_dnpc (s : State) (t : Word) : (s.seqJump t).dnpc = t := rfl
@[simp] theorem seqJump_sr (s : State) (t : Word) : (s.seqJump t).sr = s.sr := rfl
@[simp] theorem seqJump_epcr0 (s : State) (t : Word) : (s.seqJump t).epcr0 = s.epcr0 := rfl
@[simp] theorem seqJump_eear0 (s : State) (t : Word) : (s.seqJump t).eear0 = s.eear0 := rfl
@[simp] theorem seqJump_esr0 (s : State) (t : Word) : (s.seqJump t).esr0 = s.esr0 := rfl
@[simp] theorem seqJump_ttmr (s : State) (t : Word) : (s.seqJump t).ttmr = s.ttmr := rfl
@[simp] theorem seqJump_ttcr (s : State) (t : Word) : (s.seqJump t).ttcr = s.ttcr := rfl
@[simp] theorem seqJump_picmr (s : State) (t : Word) : (s.seqJump t).picmr = s.picmr := rfl
@[simp] theorem seqJump_picsr (s : State) (t : Word) : (s.seqJump t).picsr = s.picsr := rfl
@[simp] theorem seqJump_dmmu (s : State) (t : Word) : (s.seqJump t).dmmu = s.dmmu := rfl
@[simp] theorem seqJump_immu (s : State) (t : Word) : (s.seqJump t).immu = s.immu := rfl
@[simp] theorem seqJump_mem (s : State) (t : Word) : (s.seqJump t).mem = s.mem := rfl
@[simp] theorem seqJump_cfg (s : State) (t : Word) : (s.seqJump t).cfg = s.cfg := rfl
@[simp] theorem seqJump_device (s : State) (t : Word) : (s.seqJump t).device = s.device := rfl
@[simp] theorem seqJump_draws (s : State) (t : Word) : (s.seqJump t).draws = s.draws := rfl
@[simp] theorem seqJump_calls (s : State) (t : Word) : (s.seqJump t).calls = s.calls := rfl
@[simp] theorem seqJump_run (s : State) (t : Word) : (s.seqJump t).run = s.run := rfl
@[simp] theorem seqJump_halted (s : State) (t : Word) : (s.seqJump t).halted = s.halted := rfl

/-! ### dispatch -/

@[simp] theorem dispatch_gpr (c : Cause) (p : Word) (s : State) : (dispatch c p s).gpr = s.gpr := rfl
@[simp] theorem dispatch_pc (c : Cause) (p : Word) (s : State) : (dispatch c p s).pc = c.kind.vector := rfl
@[simp] theorem dispatch_df (c : Cause) (p : Word) (s : State) : (dispatch c p s).df = false := rfl
@[simp] theorem dispatch_dnpc (c : Cause) (p : Word) (s : State) : (dispatch c p s).dnpc = s.dnpc := rfl
@[simp] theorem dispatch_sr (c : Cause) (p : Word) (s : State) : (dispatch c p s).sr = srFO ||| srSM := rfl
@[simp] theorem dispatch_epcr0 (c : Cause) (p : Word) (s : State) : (dispatch c p s).epcr0 = if s.df then p - 4#32 else p := rfl
@[simp] theorem dispatch_eear0 (c : Cause) (p : Word) (s : State) : (dispatch c p s).eear0 = c.address.getD s.eear0 := rfl
@[simp] theorem dispatch_esr0 (c : Cause) (p : Word) (s : State) : (dispatch c p s).esr0 = if s.df then s.sr ||| srDSX else s.sr := rfl
@[simp] theorem dispatch_ttmr (c : Cause) (p : Word) (s : State) : (dispatch c p s).ttmr = s.ttmr := rfl
@[simp] theorem dispatch_ttcr (c : Cause) (p : Word) (s : State) : (dispatch c p s).ttcr = s.ttcr := rfl
@[simp] theorem dispatch_picmr (c : Cause) (p : Word) (s : State) : (dispatch c p s).picmr = s.picmr := rfl
@[simp] theorem dispatch_picsr (c : Cause) (p : Word) (s : State) : (dispatch c p s).picsr = s.picsr := rfl
@[simp] theorem dispatch_dmmu (c : Cause) (p : Word) (s : State) : (dispatch c p s).dmmu = s.dmmu := rfl
@[simp] theorem dispatch_immu (c : Cause) (p : Word) (s : State) : (dispatch c p s).immu = s.immu := rfl
@[simp] theorem dispatch_mem (c : Cause) (p : Word) (s : State) : (dispatch c p s).mem = s.mem := rfl
@[simp] theorem dispatch_cfg (c : Cause) (p : Word) (s : State) : (dispatch c p s).cfg = s.cfg := rfl
@[simp] theorem dispatch_device (c : Cause) (p : Word) (s : State) : (dispatch c p s).device = s.device := rfl
@[simp] theorem dispatch_draws (c : Cause) (p : Word) (s : State) : (dispatch c p s).draws = s.draws := rfl
@[simp] theorem dispatch_calls (c : Cause) (p : Word) (s : State) : (dispatch c p s).calls = s.calls := rfl
@[simp] theorem dispatch_run (c : Cause) (p : Word) (s : State) : (dispatch c p s).run = .returned .stop := rfl
@[simp] theorem dispatch_halted (c : Cause) (p : Word) (s : State) : (dispatch c p s).halted = s.halted := rfl

/-! ### returnFromException -/

@[simp] theorem returnFromException_gpr (s : State) : (returnFromException s).gpr = s.gpr := rfl
@[simp] theorem returnFromException_pc (s : State) : (returnFromException s).pc = s.epcr0 := rfl
@[simp] theorem returnFromException_df (s : State) : (returnFromException s).df = false := rfl
@[simp] theorem returnFromException_dnpc (s : State) : (returnFromException s).dnpc = s.dnpc := rfl
@[simp] theorem returnFromException_sr (s : State) : (returnFromException s).sr = s.esr0 ||| srFO := rfl
@[simp] theorem returnFromException_epcr0 (s : State) : (returnFromException s).epcr0 = s.epcr0 := rfl
@[simp] theorem returnFromException_eear0 (s : State) : (returnFromException s).eear0 = s.eear0 := rfl
@[simp] theorem returnFromException_esr0 (s : State) : (returnFromException s).esr0 = s.esr0 := rfl
@[simp] theorem returnFromException_ttmr (s : State) : (returnFromException s).ttmr = s.ttmr := rfl
@[simp] theorem returnFromException_ttcr (s : State) : (returnFromException s).ttcr = s.ttcr := rfl
@[simp] theorem returnFromException_picmr (s : State) : (returnFromException s).picmr = s.picmr := rfl
@[simp] theorem returnFromException_picsr (s : State) : (returnFromException s).picsr = s.picsr := rfl
@[simp] theorem returnFromException_dmmu (s : State) : (returnFromException s).dmmu = s.dmmu := rfl
@[simp] theorem returnFromException_immu (s : State) : (returnFromException s).immu = s.immu := rfl
@[simp] theorem returnFromException_mem (s : State) : (returnFromException s).mem = s.mem := rfl
@[simp] theorem returnFromException_cfg (s : State) : (returnFromException s).cfg = s.cfg := rfl
@[simp] theorem returnFromException_device (s : State) : (returnFromException s).device = s.device := rfl
@[simp] theorem returnFromException_draws (s : State) : (returnFromException s).draws = s.draws := rfl
@[simp] theorem returnFromException_calls (s : State) : (returnFromException s).calls = s.calls := rfl
@[simp] theorem returnFromException_run (s : State) : (returnFromException s).run = s.run := rfl
@[simp] theorem returnFromException_halted (s : State) : (returnFromException s).halted = s.halted := rfl

/-! ### countCycle -/

@[simp] theorem countCycle_gpr (s : State) : (countCycle s).gpr = s.gpr := rfl
@[simp] theorem countCycle_pc (s : State) : (countCycle s).pc = s.pc := rfl
@[simp] theorem countCycle_df (s : State) : (countCycle s).df = s.df := rfl
@[simp] theorem countCycle_dnpc (s : State) : (countCycle s).dnpc = s.dnpc := rfl
@[simp] theorem countCycle_sr (s : State) : (countCycle s).sr = s.sr := rfl
@[simp] theorem countCycle_epcr0 (s : State) : (countCycle s).epcr0 = s.epcr0 := rfl
@[simp] theorem countCycle_eear0 (s : State) : (countCycle s).eear0 = s.eear0 := rfl
@[simp] theorem countCycle_esr0 (s : State) : (countCycle s).esr0 = s.esr0 := rfl
@[simp] theorem countCycle_ttmr (s : State) : (countCycle s).ttmr = s.ttmr := rfl
@[simp] theorem countCycle_ttcr (s : State) : (countCycle s).ttcr = s.ttcr + 1#32 := rfl
@[simp] theorem countCycle_picmr (s : State) : (countCycle s).picmr = s.picmr := rfl
@[simp] theorem countCycle_picsr (s : State) : (countCycle s).picsr = s.picsr := rfl
@[simp] theorem countCycle_dmmu (s : State) : (countCycle s).dmmu = s.dmmu := rfl
@[simp] theorem countCycle_immu (s : State) : (countCycle s).immu = s.immu := rfl
@[simp] theorem countCycle_mem (s : State) : (countCycle s).mem = s.mem := rfl
@[simp] theorem countCycle_cfg (s : State) : (countCycle s).cfg = s.cfg := rfl
@[simp] theorem countCycle_device (s : State) : (countCycle s).device = s.device := rfl
@[simp] theorem countCycle_draws (s : State) : (countCycle s).draws = s.draws := rfl
@[simp] theorem countCycle_calls (s : State) : (countCycle s).calls = s.calls := rfl
@[simp] theorem countCycle_run (s : State) : (countCycle s).run = s.run := rfl
@[simp] theorem countCycle_halted (s : State) : (countCycle s).halted = false := rfl

/-! ### halt -/

@[simp] theorem halt_gpr (s : State) : (halt s).gpr = s.gpr := rfl
@[simp] theorem halt_pc (s : State) : (halt s).pc = s.pc := rfl
@[simp] theorem halt_df (s : State) : (halt s).df = s.df := rfl
@[simp] theorem halt_dnpc (s : State) : (halt s).dnpc = s.dnpc := rfl
@[simp] theorem halt_sr (s : State) : (halt s).sr = s.sr := rfl
@[simp] theorem halt_epcr0 (s : State) : (halt s).epcr0 = s.epcr0 := rfl
@[simp] theorem halt_eear0 (s : State) : (halt s).eear0 = s.eear0 := rfl
@[simp] theorem halt_esr0 (s : State) : (halt s).esr0 = s.esr0 := rfl
@[simp] theorem halt_ttmr (s : State) : (halt s).ttmr = s.ttmr := rfl
@[simp] theorem halt_ttcr (s : State) : (halt s).ttcr = s.ttcr := rfl
@[simp] theorem halt_picmr (s : State) : (halt s).picmr = s.picmr := rfl
@[simp] theorem halt_picsr (s : State) : (halt s).picsr = s.picsr := rfl
@[simp] theorem halt_dmmu (s : State) : (halt s).dmmu = s.dmmu := rfl
@[simp] theorem halt_immu (s : State) : (halt s).immu = s.immu := rfl
@[simp] theorem halt_mem (s : State) : (halt s).mem = s.mem := rfl
@[simp] theorem halt_cfg (s : State) : (halt s).cfg = s.cfg := rfl
@[simp] theorem halt_device (s : State) : (halt s).device = s.device := rfl
@[simp] theorem halt_draws (s : State) : (halt s).draws = s.draws := rfl
@[simp] theorem halt_calls (s : State) : (halt s).calls = s.calls := rfl
@[simp] theorem halt_run (s : State) : (halt s).run = .returned .stop := rfl
@[simp] theorem halt_halted (s : State) : (halt s).halted = true := rfl

/-! ### General registers -/

@[simp] theorem setFlag_reg (s : State) (f : Bool) (r : Reg) : (s.setFlag f).reg r = s.reg r := rfl
@[simp] theorem setSr_reg (s : State) (v : Word) (r : Reg) : (s.setSr v).reg r = s.reg r := rfl
@[simp] theorem drawn_reg (s : State) (r : Reg) : (s.drawn).reg r = s.reg r := rfl
@[simp] theorem seqNext_reg (s : State) (r : Reg) : (s.seqNext).reg r = s.reg r := rfl
@[simp] theorem seqJump_reg (s : State) (t : Word) (r : Reg) : (s.seqJump t).reg r = s.reg r := rfl
@[simp] theorem dispatch_reg (c : Cause) (p : Word) (s : State) (r : Reg) : (dispatch c p s).reg r = s.reg r := rfl
@[simp] theorem returnFromException_reg (s : State) (r : Reg) : (returnFromException s).reg r = s.reg r := rfl
@[simp] theorem countCycle_reg (s : State) (r : Reg) : (countCycle s).reg r = s.reg r := rfl
@[simp] theorem halt_reg (s : State) (r : Reg) : (halt s).reg r = s.reg r := rfl

theorem setReg_reg (s : State) (d r : Reg) (v : Word) : (s.setReg d v).reg r = if r = d then v else s.reg r := by
  simp only [State.reg, State.setReg, Vector.getElem_set]
  by_cases h : r = d
  · simp [h]
  · simp [h, Ne.symm (Fin.val_ne_of_ne h)]

@[simp] theorem setReg_reg_self (s : State) (d : Reg) (v : Word) : (s.setReg d v).reg d = v := by simp [setReg_reg]

theorem setReg_reg_of_ne (s : State) {d r : Reg} (v : Word) (h : r ≠ d) : (s.setReg d v).reg r = s.reg r := by
  simp [setReg_reg, h]

/-- Two register files that read alike are equal. -/
theorem gpr_ext {s t : State} (h : ∀ r, s.reg r = t.reg r) : s.gpr = t.gpr := by
  apply Vector.ext
  intro i hi
  exact h ⟨i, hi⟩

/-! ### The fields of SR -/

@[simp] theorem setFlag_flag (s : State) (f : Bool) : (s.setFlag f).flag = f := by
  cases f <;> simp [State.flag, srF]

/-- A compare's write of F leaves every other bit of SR (42_compare.md). -/
theorem setFlag_otherBits (s : State) (f : Bool) {k : Nat} (h : k ≠ 9) :
    (s.setFlag f).sr.getLsbD k = s.sr.getLsbD k := by
  by_cases hk : k < 32
  · cases f <;> simp [srF] <;> interval_cases k <;> simp_all
  · simp [BitVec.getLsbD_of_ge _ _ (Nat.le_of_not_lt hk)]

@[simp] theorem setSr_fixedOne (s : State) (v : Word) : (s.setSr v).sr.getLsbD 15 = true := by
  simp [srFO]

@[simp] theorem dispatch_sm (c : Cause) (p : Word) (s : State) : (dispatch c p s).sm = true := by
  simp [State.sm, srFO, srSM]

end Sys2Proof.Machine
end

