-- ==== Sys2Proof/Laws/Ops.lean ====
section
/-! SUPPORT. For each shared operation what it can do, said once: the completions of an instruction, taking an exception, the
physical interface, translation, the access primitives, the special registers, and every next state of `exec`. -/

namespace Sys2Proof.Machine

/-! ### Completions -/

theorem writeBack_next (d : Reg) (v : Word) (s : State) : ∃ t, writeBack d v s = .next t ∧ OnlyWrites d v s t :=
  ⟨_, rfl, setReg_reg_self s d v, fun _ h => setReg_reg_of_ne s v h, rfl, ⟨rfl, rfl, rfl, rfl, rfl, rfl, rfl, rfl, rfl⟩,
    fun _ => rfl, ⟨rfl, rfl, rfl, rfl, rfl, rfl⟩, ⟨rfl, rfl, rfl⟩⟩

theorem goOn_next (s : State) : ∃ t, goOn s = .next t ∧ OnlyGoesOn s t :=
  ⟨_, rfl, fun _ => rfl, rfl, ⟨rfl, rfl, rfl, rfl, rfl, rfl, rfl, rfl, rfl⟩, fun _ => rfl, ⟨rfl, rfl, rfl, rfl, rfl, rfl⟩,
    ⟨rfl, rfl, rfl⟩⟩

theorem compareWith_next (c : Condition) (x y : Word) (s : State) :
    ∃ t, compareWith c x y s = .next t ∧ OnlySetsFlag (c.test x y) s t :=
  ⟨_, rfl, setFlag_flag s _, fun _ h => setFlag_otherBits s _ h, fun _ => rfl, ⟨rfl, rfl, rfl, rfl, rfl, rfl, rfl, rfl, rfl⟩,
    fun _ => rfl, ⟨rfl, rfl, rfl, rfl, rfl, rfl⟩, ⟨rfl, rfl, rfl⟩⟩

/-! ### Exceptions -/

theorem vector_eq_vectorOf (c : Cause) : c.kind.vector = vectorOf c := by
  cases c <;> simp [Cause.kind, ExcKind.vector, ExcKind.code, vectorOf]

/-- Taking an exception does all and only what `Enters` says (60_exceptions.md R271). -/
theorem dispatch_enters (c : Cause) (p : Word) (s : State) : Enters c p s (dispatch c p s) := by
  refine ⟨vector_eq_vectorOf c, (by decide : srFO ||| srSM = 0x00008001#32), rfl, rfl, ?_, rfl, rfl, fun _ => rfl, fun _ => rfl, rfl, rfl, rfl, rfl, rfl, rfl, rfl,
    rfl, rfl, rfl, rfl⟩
  cases c <;> rfl

theorem raise_next (c : Cause) (s : State) :
    ∃ t, raise c s = .next t ∧ Enters c s.pc s t ∧ t.device = s.device :=
  ⟨_, rfl, dispatch_enters c s.pc s, rfl⟩

/-- Entering an exception from a state that differs in the record of the peripheral only is the same entry. -/
theorem enters_device (c : Cause) (p : Word) (s t : State) (dev : List DeviceEvent) :
    Enters c p { s with device := dev } t ↔ Enters c p s t := Iff.rfl

/-- No exception enters at a misaligned address. -/
theorem vectorOf_aligned (c : Cause) : (vectorOf c).toNat % 4 = 0 := by cases c <;> simp [vectorOf]

/-! ### The physical interface and translation -/

theorem regionOf_ram {cfg : Config} {pa : Word} {w : Width} :
    regionOf cfg pa w = .ram ↔ pa.toNat + widthBytes w ≤ cfg.maxRamAddress.toNat + 1 := by
  unfold regionOf
  split
  · simp_all
  · split <;> simp_all

/-- A read changes at most the record of the peripheral; RAM gives its bytes, and nothing else gives an exception. -/
theorem physRead_cases (pa : Word) (w : Width) (s : State) :
    (regionOf s.cfg pa w = .ram ∧ physRead pa w s = (some (s.mem.readValue pa.toNat w), s)) ∨
      (regionOf s.cfg pa w = .device ∧
        physRead pa w s = ((Config.deviceRead s.device pa w).map (fun v => lowBits v w),
          { s with device := .read pa w ((Config.deviceRead s.device pa w).map (fun v => lowBits v w)) :: s.device })) ∨
      (regionOf s.cfg pa w = .unmapped ∧ physRead pa w s = (none, s)) := by
  unfold physRead
  split <;> simp_all

/-- A write to RAM stores its bytes; one to the peripheral changes the record only. -/
theorem physWrite_cases (pa : Word) (w : Width) (v : Word) (s : State) :
    (regionOf s.cfg pa w = .ram ∧ physWrite pa w v s = (true, { s with mem := s.mem.writeValue pa.toNat w v })) ∨
      (regionOf s.cfg pa w = .device ∧
        physWrite pa w v s = (Config.deviceAccepts s.device pa w (lowBits v w),
          { s with device := .write pa w (lowBits v w) (Config.deviceAccepts s.device pa w (lowBits v w)) :: s.device })) ∨
      (regionOf s.cfg pa w = .unmapped ∧ physWrite pa w v s = (false, s)) := by
  unfold physWrite
  split <;> simp_all

/-- Translation looks at SR, the MMUs and nothing else. -/
theorem translate_congr {s t : State} (hsr : t.sr = s.sr) (hd : t.dmmu = s.dmmu) (hi : t.immu = s.immu) (side : Side)
    (isWrite : Bool) (va : Word) : translate side isWrite va t = translate side isWrite va s := by
  cases side <;> simp [translate, State.translates, State.mmu, State.dme, State.ime, State.sm, hsr, hd, hi]

/-- What translation raises carries the address translated. -/
theorem translate_error {side : Side} {isWrite : Bool} {va : Word} {s : State} {c : Cause}
    (h : translate side isWrite va s = .error c) : c.address = some va := by
  unfold translate at h
  split at h
  · dsimp only at h
    split at h
    · split at h
      · cases h
      · cases h; cases side <;> rfl
    · cases h; cases side <;> rfl
  · cases h

/-- The outcomes of translation, in the order of 20_memory.md R76. -/
theorem translate_cases (side : Side) (isWrite : Bool) (va : Word) (s : State) :
    (s.translates side = false ∧ translate side isWrite va s = .ok va) ∨
      (s.translates side = true ∧
        ((tlbHits (s.mmu side).mr[(tlbSet va).val] va = false ∧ translate side isWrite va s = .error (missCause side va)) ∨
          (tlbHits (s.mmu side).mr[(tlbSet va).val] va = true ∧
            ((permitted side isWrite s.sm (s.mmu side).tr[(tlbSet va).val] = false ∧
                translate side isWrite va s = .error (faultCause side va)) ∨
              (permitted side isWrite s.sm (s.mmu side).tr[(tlbSet va).val] = true ∧
                translate side isWrite va s =
                  .ok (pageNumber (s.mmu side).tr[(tlbSet va).val] ++ va.extractLsb' 0 13)))))) := by
  unfold translate
  cases ht : s.translates side
  · simp
  · cases hh : tlbHits (s.mmu side).mr[(tlbSet va).val] va
    · simp [hh]
    · cases hp : permitted side isWrite s.sm (s.mmu side).tr[(tlbSet va).val] <;> simp [hh, hp]

theorem misaligned_half (va : Word) : misaligned va .half = decide (va.toNat % 2 ≠ 0) := by
  simp only [misaligned, BitVec.getLsbD, Nat.testBit_zero]
  by_cases h : va.toNat % 2 = 1
  · simp [h]
  · simp [Nat.mod_two_ne_one.mp h]

theorem misaligned_word (va : Word) : misaligned va .word = decide (va.toNat % 4 ≠ 0) := by
  have h : (va.extractLsb' 0 2).toNat = va.toNat % 4 := by simp [BitVec.extractLsb'_toNat]
  rw [misaligned, Bool.eq_iff_iff]
  simp only [bne_iff_ne, ne_eq, decide_eq_true_eq, ← h]
  constructor
  · intro hne h0; exact hne (BitVec.eq_of_toNat_eq (by simpa using h0))
  · intro hne h0; exact hne (by simp [h0])

/-- A misaligned address in numbers: no multiple of the width (20_memory.md R65). -/
theorem misaligned_iff (va : Word) (w : Width) : misaligned va w = decide (va.toNat % widthBytes w ≠ 0) := by
  cases w
  · simp [misaligned, widthBytes, Nat.mod_one]
  · exact misaligned_half va
  · exact misaligned_word va

theorem misaligned_false {va : Word} {w : Width} (h : va.toNat % widthBytes w = 0) : misaligned va w = false := by
  simp [misaligned_iff, h]

/-! ### The access primitives -/

/-- The outcomes of a read of a side, in the order of 20_memory.md R78. -/
theorem readVia_cases (side : Side) (va : Word) (w : Width) (s : State) :
    (va.toNat % widthBytes w ≠ 0 ∧ readVia side va w s = .exc (.alignment va) s) ∨
      (va.toNat % widthBytes w = 0 ∧ ∃ c, translate side false va s = .error c ∧ readVia side va w s = .exc c s) ∨
      (va.toNat % widthBytes w = 0 ∧ ∃ pa, translate side false va s = .ok pa ∧
        ((∃ v u, physRead pa w s = (some v, u) ∧ readVia side va w s = .ok v u) ∨
          (∃ u, physRead pa w s = (none, u) ∧ readVia side va w s = .exc (.busError va) u))) := by
  unfold readVia
  rw [misaligned_iff]
  split
  · simp_all
  · split
    · simp_all
    · split <;> simp_all

/-- The outcomes of a data write, in the order of R78. -/
theorem memWrite_cases (va : Word) (w : Width) (v : Word) (s : State) :
    (va.toNat % widthBytes w ≠ 0 ∧ memWrite va w v s = .exc (.alignment va) s) ∨
      (va.toNat % widthBytes w = 0 ∧ ∃ c, translate .data true va s = .error c ∧ memWrite va w v s = .exc c s) ∨
      (va.toNat % widthBytes w = 0 ∧ ∃ pa, translate .data true va s = .ok pa ∧
        ((∃ u, physWrite pa w v s = (true, u) ∧ memWrite va w v s = .ok () u) ∨
          (∃ u, physWrite pa w v s = (false, u) ∧ memWrite va w v s = .exc (.busError va) u))) := by
  unfold memWrite
  rw [misaligned_iff]
  split
  · simp_all
  · split
    · simp_all
    · split <;> simp_all

/-- The state a physical read leaves differs in the record of the peripheral at most. -/
theorem physRead_state {pa : Word} {w : Width} {s u : State} {r : Option Word} (h : physRead pa w s = (r, u)) :
    u = { s with device := u.device } := by
  obtain ⟨_, h'⟩ | ⟨_, h'⟩ | ⟨_, h'⟩ := physRead_cases pa w s <;> (rw [h'] at h; cases h; rfl)

/-- A physical write that is refused leaves the same but for the record of the peripheral. -/
theorem physWrite_refused {pa : Word} {w : Width} {v : Word} {s u : State} (h : physWrite pa w v s = (false, u)) :
    u = { s with device := u.device } := by
  obtain ⟨_, h'⟩ | ⟨_, h'⟩ | ⟨_, h'⟩ := physWrite_cases pa w v s <;> (rw [h', Prod.mk.injEq] at h; simp_all [← h.2])

/-- A physical write that is accepted either stores into RAM or is the peripheral's. -/
theorem physWrite_accepted {pa : Word} {w : Width} {v : Word} {s u : State} (h : physWrite pa w v s = (true, u)) :
    (regionOf s.cfg pa w = .ram ∧ u = { s with mem := s.mem.writeValue pa.toNat w v }) ∨
      u = { s with device := u.device } := by
  obtain ⟨hr, h'⟩ | ⟨_, h'⟩ | ⟨_, h'⟩ := physWrite_cases pa w v s <;> rw [h', Prod.mk.injEq] at h
  · exact .inl ⟨hr, h.2.symm⟩
  · exact .inr (by simp [← h.2])
  · exact absurd h.1 (by simp)

/-- A load that reaches RAM. -/
theorem loadWith_ram {w : Width} {f : Word → Word} {d a : Reg} {i : BitVec 16} {pa : Word} {s : State}
    (h : ReachesRam false (s.effectiveAddress a i) w pa s) :
    loadWith w f d a i s = writeBack d (f (s.mem.readValue pa.toNat w)) s := by
  obtain ⟨h1, h2, h3⟩ := h
  unfold loadWith memRead readVia
  rw [misaligned_false h1, h2]
  simp [physRead, regionOf_ram.2 h3]

/-- A store that reaches RAM. -/
theorem storeWith_ram {w : Width} {a b : Reg} {i : BitVec 16} {pa : Word} {s : State}
    (h : ReachesRam true (s.effectiveAddress a i) w pa s) :
    storeWith w a b i s = goOn { s with mem := s.mem.writeValue pa.toNat w (s.reg b) } := by
  obtain ⟨h1, h2, h3⟩ := h
  unfold storeWith memWrite
  rw [misaligned_false h1, h2]
  simp [physWrite, regionOf_ram.2 h3]

/-- The read of a special register draws a value or changes nothing. -/
theorem sprRead_state (r : Spr) (s : State) : (sprRead r s).2 = { s with draws := (sprRead r s).2.draws } := by
  unfold sprRead
  split <;> try rfl
  all_goals (split <;> rfl)

/-- A write of a special register leaves everything else but that register, and SR when it is SR. -/
theorem sprWrite_frame (r : Spr) (v : Word) (s : State) :
    (sprWrite r v s).gpr = s.gpr ∧ (sprWrite r v s).pc = s.pc ∧ (sprWrite r v s).df = s.df ∧
      (sprWrite r v s).dnpc = s.dnpc ∧ (sprWrite r v s).mem = s.mem ∧ (sprWrite r v s).cfg = s.cfg ∧
      (sprWrite r v s).device = s.device ∧ (sprWrite r v s).draws = s.draws ∧ (sprWrite r v s).calls = s.calls ∧
      (sprWrite r v s).run = s.run ∧ (sprWrite r v s).halted = s.halted ∧ (r ≠ .sr → (sprWrite r v s).sr = s.sr) ∧
      (r ≠ .eear0 → (sprWrite r v s).eear0 = s.eear0) ∧ (r ≠ .ttcr → (sprWrite r v s).ttcr = s.ttcr) := by
  unfold sprWrite
  split
  case h_10 side => cases side <;> simp [State.setMmu]
  case h_11 side _ => cases side <;> simp [State.setMmu]
  case h_12 side _ => cases side <;> simp [State.setMmu]
  case h_14 => split <;> simp
  all_goals simp

/-- Every write of SR leaves FO set (10_state.md R26). -/
theorem sprWrite_fixedOne {s : State} (r : Spr) (v : Word) (h : s.sr.getLsbD 15 = true) :
    (sprWrite r v s).sr.getLsbD 15 = true := by
  by_cases hr : r = .sr
  · subst hr; exact setSr_fixedOne s v
  · rw [(sprWrite_frame r v s).2.2.2.2.2.2.2.2.2.2.2.1 hr, h]

/-! ### Every next state of an instruction -/

/-- What an instruction that gives a next state did. -/
inductive Effect (i : Instr) (s : State) : State → Prop
  /-- It wrote a register and went on; a load may have met the peripheral, a read of a special register may have drawn. -/
  | writes (d : Reg) (v : Word) (dev : List DeviceEvent) (n : Nat) (hm : ∀ a b k, i ≠ .mtspr a b k)
      (ht : takenTarget i s = none) : Effect i s (({ s with device := dev, draws := n }.setReg d v).seqNext)
  /-- It went on without a write; a store may have met the peripheral. -/
  | goesOn (dev : List DeviceEvent) (hm : ∀ a b k, i ≠ .mtspr a b k) (ht : takenTarget i s = none) :
      Effect i s ({ s with device := dev }.seqNext)
  /-- It set F. -/
  | flag (f : Bool) (hm : ∀ a b k, i ≠ .mtspr a b k) (ht : takenTarget i s = none) : Effect i s (s.setFlag f).seqNext
  /-- It stored into RAM. -/
  | stores (a b : Reg) (k : BitVec 16) (pa : Word) (w : Width) (hi : dataAccess i = some ⟨a, k, w, true⟩)
      (hpa : translate .data true (s.effectiveAddress a k) s = .ok pa)
      (hal : (s.effectiveAddress a k).toNat % widthBytes w = 0) (hr : regionOf s.cfg pa w = .ram) :
      Effect i s ({ s with mem := s.mem.writeValue pa.toNat w (s.reg b) }.seqNext)
  /-- It wrote a special register. -/
  | special (a b : Reg) (k : BitVec 16) (hi : i = .mtspr a b k) (hd : s.systemDenied = false) :
      Effect i s (sprWrite (decodeSpr (s.sprAddress a k)) (s.reg b) s).seqNext
  /-- It took a transfer. -/
  | jumps (target : Word) (hdf : s.df = false) (ht : takenTarget i s = some target) : Effect i s (s.seqJump target)
  /-- It took a transfer and linked. -/
  | links (target : Word) (hdf : s.df = false) (ht : takenTarget i s = some target) :
      Effect i s ((s.setReg linkReg (s.pc + 8#32)).seqJump target)
  /-- It took an exception, with its own address saved. -/
  | raises (c : Cause) (dev : List DeviceEvent) (ht : takenTarget i s = none) :
      Effect i s (dispatch c s.pc { s with device := dev })
  /-- It was `l.sys`. -/
  | calls (k : BitVec 16) (hi : i = .sys k) (hdf : s.df = false) : Effect i s (dispatch .syscall (s.pc + 4#32) s)
  /-- It was `l.rfe`. -/
  | returns (hi : i = .rfe) (hd : s.systemDenied = false) (hdf : s.df = false) : Effect i s (returnFromException s)

theorem loadWith_effect {w : Width} {f : Word → Word} {d a : Reg} {k : BitVec 16} {s t : State} {i : Instr}
    (hm : ∀ a b k, i ≠ .mtspr a b k) (ht : takenTarget i s = none) (h : loadWith w f d a k s = .next t) :
    Effect i s t := by
  unfold loadWith memRead at h
  obtain ⟨_, hc⟩ | ⟨_, c, _, hc⟩ | ⟨_, pa, _, ⟨v, u, hp, hc⟩ | ⟨u, hp, hc⟩⟩ :=
    readVia_cases .data (s.effectiveAddress a k) w s
  · rw [hc] at h; cases h; exact .raises _ s.device ht
  · rw [hc] at h; cases h; exact .raises _ s.device ht
  · rw [hc] at h
    have hu := physRead_state hp
    rw [hu] at h; cases h; exact .writes d _ _ s.draws hm ht
  · rw [hc] at h
    have hu := physRead_state hp
    rw [hu] at h; cases h; exact .raises _ _ ht

theorem storeWith_effect {w : Width} {a b : Reg} {k : BitVec 16} {s t : State} {i : Instr}
    (hi : dataAccess i = some ⟨a, k, w, true⟩)
    (hm : ∀ a b k, i ≠ .mtspr a b k) (ht : takenTarget i s = none) (h : storeWith w a b k s = .next t) :
    Effect i s t := by
  unfold storeWith at h
  obtain ⟨_, hc⟩ | ⟨_, c, _, hc⟩ | ⟨hal, pa, hpa, ⟨u, hp, hc⟩ | ⟨u, hp, hc⟩⟩ :=
    memWrite_cases (s.effectiveAddress a k) w (s.reg b) s
  · rw [hc] at h; cases h; exact .raises _ s.device ht
  · rw [hc] at h; cases h; exact .raises _ s.device ht
  · rw [hc] at h
    obtain ⟨hr, hu⟩ | hu := physWrite_accepted hp
    · rw [hu] at h; cases h; exact .stores a b k pa w hi hpa hal hr
    · rw [hu] at h; cases h; exact .goesOn _ hm ht
  · rw [hc] at h
    have hu := physWrite_refused hp
    rw [hu] at h; cases h; exact .raises _ _ ht

theorem writeBack_effect {d : Reg} {v : Word} {s t : State} {i : Instr} (hm : ∀ a b k, i ≠ .mtspr a b k)
    (ht : takenTarget i s = none) (h : writeBack d v s = .next t) : Effect i s t := by
  cases h; exact .writes d v s.device s.draws hm ht

theorem shiftImmediate_effect {f : Word → Nat → Word} {d a : Reg} {l : Nat} {s t : State} {i : Instr}
    (hm : ∀ a b k, i ≠ .mtspr a b k) (ht : takenTarget i s = none) (h : shiftImmediate f d a l s = .next t) : Effect i s t := by
  unfold shiftImmediate at h
  split at h
  · cases h
  · exact writeBack_effect hm ht h

theorem compareWith_effect {c : Condition} {x y : Word} {s t : State} {i : Instr} (hm : ∀ a b k, i ≠ .mtspr a b k)
    (ht : takenTarget i s = none) (h : compareWith c x y s = .next t) :
    Effect i s t := by
  cases h; exact .flag _ hm ht

theorem goOn_effect {s t : State} {i : Instr} (hm : ∀ a b k, i ≠ .mtspr a b k) (ht : takenTarget i s = none)
    (h : goOn s = .next t) : Effect i s t := by
  cases h; exact .goesOn s.device hm ht

theorem jumpTo_effect {g : Word} {s t : State} {i : Instr} (ht : takenTarget i s = some g)
    (h : jumpTo g s = .next t) : Effect i s t := by
  unfold jumpTo at h
  split at h
  · cases h
  · cases h; exact .jumps g (by simp_all) ht

theorem jumpAndLink_effect {g : Word} {s t : State} {i : Instr} (ht : takenTarget i s = some g)
    (h : jumpAndLink g s = .next t) : Effect i s t := by
  unfold jumpAndLink at h
  split at h
  · cases h
  · cases h; exact .links g (by simp_all) ht

theorem branchIf_effect {taken : Bool} {g : Word} {s t : State} {i : Instr} (hm : ∀ a b k, i ≠ .mtspr a b k)
    (ht : takenTarget i s = if taken then some g else none) (h : branchIf taken g s = .next t) : Effect i s t := by
  unfold branchIf at h
  split at h
  · cases h
  · cases taken
    · exact goOn_effect hm (by simpa using ht) h
    · cases h; exact .jumps g (by simp_all) (by simpa using ht)

/-- The byte offset of an immediate transfer is four times the signed word offset. -/
theorem jumpOffset_eq (n : BitVec 26) : jumpOffset n = BitVec.ofInt 32 (4 * n.toInt) := by
  rw [jumpOffset, BitVec.signExtend, BitVec.shiftLeft_eq_mul_twoPow, BitVec.ofInt_mul, BitVec.mul_comm]
  rfl

theorem jumpTarget_eq (n : BitVec 26) (s : State) : s.jumpTarget n = s.pc + BitVec.ofInt 32 (4 * n.toInt) := by
  rw [State.jumpTarget, jumpOffset_eq]

/-- Every next state of an instruction is one of the effects. -/
theorem exec_effect {i : Instr} {s t : State} (h : exec i s = .next t) : Effect i s t := by
  cases i with
  | movhi d k => exact writeBack_effect (by simp) rfl h
  | addi d a i => exact writeBack_effect (by simp) rfl h
  | andi d a k => exact writeBack_effect (by simp) rfl h
  | ori d a k => exact writeBack_effect (by simp) rfl h
  | xori d a i => exact writeBack_effect (by simp) rfl h
  | muli d a i => exact writeBack_effect (by simp) rfl h
  | slli d a l => exact shiftImmediate_effect (by simp) rfl h
  | srli d a l => exact shiftImmediate_effect (by simp) rfl h
  | srai d a l => exact shiftImmediate_effect (by simp) rfl h
  | rori d a l => exact shiftImmediate_effect (by simp) rfl h
  | add d a b => exact writeBack_effect (by simp) rfl h
  | sub d a b => exact writeBack_effect (by simp) rfl h
  | and d a b => exact writeBack_effect (by simp) rfl h
  | or d a b => exact writeBack_effect (by simp) rfl h
  | xor d a b => exact writeBack_effect (by simp) rfl h
  | mul d a b => exact writeBack_effect (by simp) rfl h
  | mulu d a b => exact writeBack_effect (by simp) rfl h
  | div d a b =>
    change (if divOverflows (s.reg a) (s.reg b) then _ else _) = _ at h
    split at h
    · cases h
    · exact writeBack_effect (by simp) rfl h
  | divu d a b => exact writeBack_effect (by simp) rfl h
  | sll d a b => exact writeBack_effect (by simp) rfl h
  | srl d a b => exact writeBack_effect (by simp) rfl h
  | sra d a b => exact writeBack_effect (by simp) rfl h
  | ror d a b => exact writeBack_effect (by simp) rfl h
  | exths d a => exact writeBack_effect (by simp) rfl h
  | extbs d a => exact writeBack_effect (by simp) rfl h
  | exthz d a => exact writeBack_effect (by simp) rfl h
  | extbz d a => exact writeBack_effect (by simp) rfl h
  | cmov d a b => exact writeBack_effect (by simp) rfl h
  | ff1 d a => exact writeBack_effect (by simp) rfl h
  | fl1 d a => exact writeBack_effect (by simp) rfl h
  | sfeq a b => exact compareWith_effect (by simp) rfl h
  | sfne a b => exact compareWith_effect (by simp) rfl h
  | sfgtu a b => exact compareWith_effect (by simp) rfl h
  | sfgeu a b => exact compareWith_effect (by simp) rfl h
  | sfltu a b => exact compareWith_effect (by simp) rfl h
  | sfleu a b => exact compareWith_effect (by simp) rfl h
  | sfgts a b => exact compareWith_effect (by simp) rfl h
  | sfges a b => exact compareWith_effect (by simp) rfl h
  | sflts a b => exact compareWith_effect (by simp) rfl h
  | sfles a b => exact compareWith_effect (by simp) rfl h
  | sfeqi a k => exact compareWith_effect (by simp) rfl h
  | sfnei a k => exact compareWith_effect (by simp) rfl h
  | sfgtui a k => exact compareWith_effect (by simp) rfl h
  | sfgeui a k => exact compareWith_effect (by simp) rfl h
  | sfltui a k => exact compareWith_effect (by simp) rfl h
  | sfleui a k => exact compareWith_effect (by simp) rfl h
  | sfgtsi a k => exact compareWith_effect (by simp) rfl h
  | sfgesi a k => exact compareWith_effect (by simp) rfl h
  | sfltsi a k => exact compareWith_effect (by simp) rfl h
  | sflesi a k => exact compareWith_effect (by simp) rfl h
  | j n => exact jumpTo_effect (by rw [jumpTarget_eq]; rfl) h
  | jal n => exact jumpAndLink_effect (by rw [jumpTarget_eq]; rfl) h
  | bnf n => exact branchIf_effect (by simp) (by rw [jumpTarget_eq]; cases hf : s.flag <;> simp [takenTarget, hf]) h
  | bf n => exact branchIf_effect (by simp) (by rw [jumpTarget_eq]; cases hf : s.flag <;> simp [takenTarget, hf]) h
  | jr b => exact jumpTo_effect rfl h
  | jalr b => exact jumpAndLink_effect rfl h
  | nop k => exact goOn_effect (by simp) rfl h
  | lwz d a k => exact loadWith_effect (by simp) rfl h
  | lws d a k => exact loadWith_effect (by simp) rfl h
  | lbz d a k => exact loadWith_effect (by simp) rfl h
  | lbs d a k => exact loadWith_effect (by simp) rfl h
  | lhz d a k => exact loadWith_effect (by simp) rfl h
  | lhs d a k => exact loadWith_effect (by simp) rfl h
  | sw a b k => exact storeWith_effect rfl (by simp) rfl h
  | sb a b k => exact storeWith_effect rfl (by simp) rfl h
  | sh a b k => exact storeWith_effect rfl (by simp) rfl h
  | mfspr d a k =>
    change (if s.systemDenied then _ else _) = _ at h
    split at h
    · cases h
    · have hs := sprRead_state (decodeSpr (s.sprAddress a k)) s
      rw [hs] at h
      cases h
      exact .writes d _ s.device _ (by simp) rfl
  | mtspr a b k =>
    change (if s.systemDenied then _ else _) = _ at h
    split at h
    · cases h
    · cases h; exact .special a b k rfl (by simp_all)
  | sys k =>
    change (if s.df then _ else _) = _ at h
    split at h
    · cases h
    · cases h; exact .calls k rfl (by simp_all)
  | trap k => cases h; exact .raises _ s.device rfl
  | rfe =>
    change (if s.systemDenied then _ else if s.df then _ else _) = _ at h
    split at h
    · cases h
    · split at h
      · cases h
      · cases h; exact .returns rfl (by simp_all) (by simp_all)
  | msync => exact goOn_effect (by simp) rfl h
  | psync => exact goOn_effect (by simp) rfl h
  | csync => exact goOn_effect (by simp) rfl h
  | addc => cases h
  | muld => cases h
  | muldu => cases h
  | extws => cases h
  | extwz => cases h
  | macrc => cases h
  | adrp => cases h
  | lv => cases h
  | maci => cases h
  | lf => cases h
  | lwa => cases h
  | cust1 => cases h
  | cust2 => cases h
  | cust3 => cases h
  | cust4 => cases h
  | cust5 => cases h
  | cust6 => cases h
  | cust7 => cases h
  | cust8 => cases h
  | ld => cases h
  | addic => cases h
  | mac => cases h
  | lfp => cases h
  | swa => cases h
  | sd => cases h

end Sys2Proof.Machine
end

