-- ==== Sys2Proof/Laws/Alu.lean ====
section
/-! SUPPORT. The arithmetic of the ALU in numbers: extensions, shift amounts, rotation, and the division that overflows. -/

namespace Sys2Proof.Machine

/-- A completion that writes one register, for a meaning that is one. -/
theorem onlyWrites_of {d : Reg} {v : Word} {s : State} {r : Result} {P : Word → Prop} (h : r = writeBack d v s) (hp : P v) :
    ∃ t v, r = .next t ∧ OnlyWrites d v s t ∧ P v := by
  obtain ⟨t, h1, h2⟩ := writeBack_next d v s
  exact ⟨t, v, h.trans h1, h2, hp⟩

/-- A completion that sets F, for a meaning that is one. -/
theorem onlySetsFlag_of {c : Condition} {x y : Word} {s : State} {f : Bool} {r : Result} (h : r = compareWith c x y s)
    (hp : c.test x y = f) : ∃ t, r = .next t ∧ OnlySetsFlag f s t := by
  subst hp
  obtain ⟨t, h1, h2⟩ := compareWith_next c x y s
  exact ⟨t, h.trans h1, h2⟩

theorem sext16_toInt (k : BitVec 16) : (sext16 k).toInt = k.toInt := BitVec.toInt_signExtend_of_le (by omega)

theorem sext16_eq_ofInt (k : BitVec 16) : sext16 k = BitVec.ofInt 32 k.toInt := rfl

theorem effectiveAddress_eq (a : Reg) (i : BitVec 16) (s : State) :
    s.effectiveAddress a i = BitVec.ofInt 32 ((s.reg a).toInt + i.toInt) := by
  rw [State.effectiveAddress, sext16_eq_ofInt, BitVec.ofInt_add]
  simp

theorem shiftAmount_eq (y : Word) : shiftAmount y = y.toNat % 32 := by simp [shiftAmount, BitVec.extractLsb'_toNat]

theorem lowBits_toNat (v : Word) (w : Width) : (lowBits v w).toNat = v.toNat % 2 ^ (8 * widthBytes w) := by
  cases w <;> simp [lowBits, widthBytes, zext8, zext16, lowByte, lowHalf, BitVec.extractLsb'_toNat] <;> omega

/-- Rotation to the right moves bit `k + n` to bit `k`, modulo 32 (41_alu.md R159, R172). -/
theorem rotateRight_getLsbD (x : Word) {n k : Nat} (hn : n < 32) (hk : k < 32) :
    (rotateRight x n).getLsbD k = x.getLsbD ((k + n) % 32) := by
  unfold rotateRight
  split
  · subst_vars; simp [Nat.mod_eq_of_lt hk]
  · simp only [BitVec.getLsbD_or, BitVec.getLsbD_ushiftRight, BitVec.getLsbD_shiftLeft, hk]
    by_cases h : k + n < 32
    · have h1 : k < 32 - n := by omega
      rw [Nat.mod_eq_of_lt h]
      simp [h1, Nat.add_comm]
    · have h2 : (k + n) % 32 = k - (32 - n) := by omega
      have h3 : ¬k < 32 - n := by omega
      rw [h2, BitVec.getLsbD_of_ge x (n + k) (by omega)]
      simp [h3]

theorem sshiftRight_toInt (x : Word) (n : Nat) : (x.sshiftRight n).toInt = x.toInt / 2 ^ n := by
  rw [BitVec.toInt_sshiftRight, Int.shiftRight_eq_div_pow]; simp

/-- The operands of the one signed division that does not fit (41_alu.md R167). -/
theorem divOverflows_iff (x y : Word) : divOverflows x y = true ↔ x.toInt = -2147483648 ∧ y.toInt = -1 := by
  simp only [divOverflows, Bool.and_eq_true, beq_iff_eq]
  constructor
  · rintro ⟨rfl, rfl⟩; decide
  · rintro ⟨h1, h2⟩
    exact ⟨BitVec.eq_of_toInt_eq (by rw [h1]; decide), BitVec.eq_of_toInt_eq (by rw [h2]; decide)⟩

end Sys2Proof.Machine
end

