-- ==== Sys2Proof/Laws/Cycle.lean ====
section
/-! SUPPORT. What a cycle and a step can do, said once. -/

namespace Sys2Proof.Machine

/-! ### The tick phase -/

/-- A mode field that arms, in numbers: the two bits above bit 29 (10_state.md R34, 60_exceptions.md R287). -/
theorem modeArmed_iff (t : TickModes) (v : Word) :
    modeArmed t (tickMode v) = true ↔ (v.toNat / 1073741824 = 1 ∧ t.m01 = true) ∨
      (v.toNat / 1073741824 = 2 ∧ t.m10 = true) ∨ (v.toNat / 1073741824 = 3 ∧ t.m11 = true) := by
  have h : (tickMode v).toNat = v.toNat / 1073741824 := by
    simp [tickMode, BitVec.extractLsb'_toNat, Nat.shiftRight_eq_div_pow]
    omega
  unfold modeArmed
  rw [h]
  split <;> simp_all

theorem tickMatches_countCycle (s : State) : (countCycle s).tickMatches = true ↔ TicksNext s := by
  have h1 : (tickPeriod (s.ttcr + 1#32) = tickPeriod s.ttmr) ↔
      (s.ttcr.toNat + 1) % 268435456 = s.ttmr.toNat % 268435456 := by
    rw [← BitVec.toNat_inj]
    simp [tickPeriod, BitVec.extractLsb'_toNat]
  simp [State.tickMatches, TicksNext, h1, modeArmed_iff]

theorem tickFires_iff (s : State) : tickFires s = true ↔ TicksNext s ∧ s.tickEnabled = true := by
  rw [tickFires, Bool.and_eq_true, tickMatches_countCycle]
  exact Iff.rfl

/-- The tick phase changes the count, TTMR and the halted mark only. -/
theorem tickPhase_eq (s : State) :
    tickPhase s = { s with ttcr := s.ttcr + 1#32, ttmr := (tickPhase s).ttmr, halted := false } := by
  unfold tickPhase markTick
  split <;> rfl

/-! ### A cycle -/

/-- The outcomes of a cycle: the tick exception; an exception of the fetch; else the word fetched is run, in a state that
differs in the record of the peripheral at most. -/
theorem cycle_cases (s : State) :
    (tickFires s = true ∧ cycle s = raise .tick (tickPhase s)) ∨
      (tickFires s = false ∧
        ((∃ c dev, cycle s = raise c { tickPhase s with device := dev }) ∨
          ∃ w dev, fetch (tickPhase s) = .ok w { tickPhase s with device := dev } ∧
            cycle s = runWord w { tickPhase s with device := dev })) := by
  unfold cycle
  cases hf : tickFires s
  · refine .inr ⟨rfl, ?_⟩
    obtain ⟨_, hc⟩ | ⟨_, c, _, hc⟩ | ⟨_, pa, _, ⟨v, u, hp, hc⟩ | ⟨u, hp, hc⟩⟩ :=
      readVia_cases .insn (tickPhase s).pc .word (tickPhase s)
    · exact .inl ⟨.alignment (tickPhase s).pc, (tickPhase s).device, by simp only [fetch, hc]; rfl⟩
    · exact .inl ⟨c, (tickPhase s).device, by simp only [fetch, hc]; rfl⟩
    · refine .inr ⟨v, u.device, ?_, ?_⟩
      · rw [fetch, hc, ← physRead_state hp]
      · simp [fetch, hc, ← physRead_state hp]
    · exact .inl ⟨.busError (tickPhase s).pc, u.device, by simp only [fetch, hc, ← physRead_state hp]; rfl⟩
  · exact .inl ⟨rfl, rfl⟩

/-- Running a fetched word that gives a next state halts, takes the illegal-instruction exception, or executes. -/
theorem runWord_cases {w : Word} {s t : State} (h : runWord w s = .next t) :
    (s.cfg.haltWord = some w ∧ t = halt s) ∨ (s.cfg.haltWord ≠ some w ∧ (∃ e, decode w = .error e) ∧ raise .illegal s = .next t) ∨
      (s.cfg.haltWord ≠ some w ∧ ∃ i, decode w = .ok i ∧ exec i s = .next t) := by
  unfold runWord at h
  split at h
  · exact .inl ⟨by assumption, by cases h; rfl⟩
  · split at h
    · exact .inr (.inr ⟨by assumption, _, by assumption, h⟩)
    · exact .inr (.inl ⟨by assumption, ⟨_, by assumption⟩, h⟩)

/-- A fetch from RAM gives the word there and leaves the state as it is. -/
theorem fetch_ram {w : Word} {s : State} (h : FetchesFromRam w s) : fetch s = .ok w s := by
  obtain ⟨pa, ha, ht, hr, rfl⟩ := h
  unfold fetch readVia
  rw [misaligned_false (w := .word) ha]
  simp [ht, physRead, regionOf_ram (w := .word).2 hr, Memory.readValue]

/-! ### A step -/

theorem afterCycle_next {r : Result} {t : State} (h : afterCycle r = .next t) : ∃ u, r = .next u ∧ t = closeRun u := by
  cases r with
  | next u => cases h; exact ⟨u, rfl, rfl⟩
  | fault f => cases h
  | refused f => cases h

/-- The close of a Run call changes the run status only, and never leaves a call without a cycle. -/
theorem closeRun_eq (s : State) : closeRun s = { s with run := (closeRun s).run } ∧ (closeRun s).run ≠ .running 0 := by
  unfold closeRun
  split
  · exact ⟨rfl, by simp⟩
  · exact ⟨rfl, by assumption⟩

theorem spendBudget_eq (s : State) : spendBudget s = { s with run := (spendBudget s).run } := by
  unfold spendBudget
  split <;> rfl

/-- A step is a cycle closed by the budget, or one host call. -/
theorem step_cases (s : State) :
    (s.cycles = true ∧ step s = afterCycle (cycle (spendBudget s))) ∨
      (s.cycles = false ∧ ∃ c rest, s.inRun = false ∧ s.calls = c :: rest ∧ step s = hostCall c { s with calls := rest }) := by
  unfold step turn State.cycles
  cases hr : s.inRun
  · cases hc : s.calls with
    | nil =>
      refine .inl ⟨by simp, ?_⟩
      have : spendBudget s = s := by
        unfold spendBudget
        unfold State.inRun at hr
        split <;> simp_all
      simp [this]
    | cons c rest => exact .inr ⟨by simp, c, rest, rfl, rfl, by simp⟩
  · exact .inl ⟨by simp, by simp⟩

end Sys2Proof.Machine
end

