-- ==== Sys2Proof/Laws/Encoding.lean ====
section
/-! SUPPORT. The fields of a word the encoder builds: for every format (30_encoding.md R101 to R111) one lemma per field. -/

namespace Sys2Proof

/-- The bits of a register number, read back as a register. -/
@[simp] theorem regBits_toFin (r : Reg) : (regBits r).toFin = r := rfl

/-- A split immediate, joined again (R110). -/
@[simp] theorem split_join (i : BitVec 16) : (i.extractLsb' 11 5 ++ i.extractLsb' 0 11 : BitVec 16) = i := by
  ext k hk
  simp only [BitVec.getElem_append, BitVec.getElem_extractLsb']
  split <;> (rw [BitVec.getLsbD_eq_getElem (by omega)]; congr 1; omega)

/-- The bytes of a word, read back as a word (20_memory.md R63). -/
theorem wordOfBytes_extract (w : Word) :
    wordOfBytes (w.extractLsb' 24 8) (w.extractLsb' 16 8) (w.extractLsb' 8 8) (w.extractLsb' 0 8) = w := by
  unfold wordOfBytes
  ext k hk
  simp only [BitVec.getElem_append, BitVec.getElem_extractLsb']
  repeat' split
  all_goals (rw [BitVec.getLsbD_eq_getElem (by omega)]; congr 1; omega)

/-! ### formatJ -/

@[simp] theorem formatJ_opcode (op : BitVec 6) (n : BitVec 26) : (formatJ op n).extractLsb' 26 6 = op := by
  apply BitVec.eq_of_getLsbD_eq
  intro k hk
  simp only [formatJ, BitVec.getLsbD_extractLsb', BitVec.getLsbD_append]
  interval_cases k <;> simp

@[simp] theorem formatJ_offset (op : BitVec 6) (n : BitVec 26) : (formatJ op n).extractLsb' 0 26 = n := by
  apply BitVec.eq_of_getLsbD_eq
  intro k hk
  simp only [formatJ, BitVec.getLsbD_extractLsb', BitVec.getLsbD_append]
  interval_cases k <;> simp

/-! ### formatJR -/

@[simp] theorem formatJR_opcode (op : BitVec 6) (b : Reg) : (formatJR op b).extractLsb' 26 6 = op := by
  apply BitVec.eq_of_getLsbD_eq
  intro k hk
  simp only [formatJR, BitVec.getLsbD_extractLsb', BitVec.getLsbD_append]
  interval_cases k <;> simp

@[simp] theorem formatJR_b (op : BitVec 6) (b : Reg) : (formatJR op b).extractLsb' 11 5 = regBits b := by
  apply BitVec.eq_of_getLsbD_eq
  intro k hk
  simp only [formatJR, BitVec.getLsbD_extractLsb', BitVec.getLsbD_append]
  interval_cases k <;> simp

/-! ### formatNop -/

@[simp] theorem formatNop_opcode (k : BitVec 16) : (formatNop k).extractLsb' 26 6 = 0x05#6 := by
  apply BitVec.eq_of_getLsbD_eq
  intro k hk
  simp only [formatNop, BitVec.getLsbD_extractLsb', BitVec.getLsbD_append]
  interval_cases k <;> simp

@[simp] theorem formatNop_select (k : BitVec 16) : (formatNop k).extractLsb' 24 2 = 1#2 := by
  apply BitVec.eq_of_getLsbD_eq
  intro k hk
  simp only [formatNop, BitVec.getLsbD_extractLsb', BitVec.getLsbD_append]
  interval_cases k <;> simp

@[simp] theorem formatNop_imm (k : BitVec 16) : (formatNop k).extractLsb' 0 16 = k := by
  apply BitVec.eq_of_getLsbD_eq
  intro k hk
  simp only [formatNop, BitVec.getLsbD_extractLsb', BitVec.getLsbD_append]
  interval_cases k <;> simp

/-! ### formatMovhi -/

@[simp] theorem formatMovhi_opcode (d : Reg) (k : BitVec 16) : (formatMovhi d k).extractLsb' 26 6 = 0x06#6 := by
  apply BitVec.eq_of_getLsbD_eq
  intro k hk
  simp only [formatMovhi, BitVec.getLsbD_extractLsb', BitVec.getLsbD_append]
  interval_cases k <;> simp

@[simp] theorem formatMovhi_d (d : Reg) (k : BitVec 16) : (formatMovhi d k).extractLsb' 21 5 = regBits d := by
  apply BitVec.eq_of_getLsbD_eq
  intro k hk
  simp only [formatMovhi, BitVec.getLsbD_extractLsb', BitVec.getLsbD_append]
  interval_cases k <;> simp

@[simp] theorem formatMovhi_select (d : Reg) (k : BitVec 16) : (formatMovhi d k).extractLsb' 16 1 = 0#1 := by
  apply BitVec.eq_of_getLsbD_eq
  intro j hj
  simp only [formatMovhi, BitVec.getLsbD_extractLsb', BitVec.getLsbD_append]
  interval_cases j
  simp

@[simp] theorem formatMovhi_imm (d : Reg) (k : BitVec 16) : (formatMovhi d k).extractLsb' 0 16 = k := by
  apply BitVec.eq_of_getLsbD_eq
  intro k hk
  simp only [formatMovhi, BitVec.getLsbD_extractLsb', BitVec.getLsbD_append]
  interval_cases k <;> simp

/-! ### formatSys -/

@[simp] theorem formatSys_opcode (sel k : BitVec 16) : (formatSys sel k).extractLsb' 26 6 = sel.extractLsb' 10 6 := by
  apply BitVec.eq_of_getLsbD_eq
  intro k hk
  simp only [formatSys, BitVec.getLsbD_extractLsb', BitVec.getLsbD_append]
  interval_cases k <;> simp

@[simp] theorem formatSys_select (sel k : BitVec 16) : (formatSys sel k).extractLsb' 16 16 = sel := by
  apply BitVec.eq_of_getLsbD_eq
  intro k hk
  simp only [formatSys, BitVec.getLsbD_extractLsb', BitVec.getLsbD_append]
  interval_cases k <;> simp

@[simp] theorem formatSys_imm (sel k : BitVec 16) : (formatSys sel k).extractLsb' 0 16 = k := by
  apply BitVec.eq_of_getLsbD_eq
  intro k hk
  simp only [formatSys, BitVec.getLsbD_extractLsb', BitVec.getLsbD_append]
  interval_cases k <;> simp

/-! ### formatI -/

@[simp] theorem formatI_opcode (op : BitVec 6) (d a : Reg) (i : BitVec 16) : (formatI op d a i).extractLsb' 26 6 = op := by
  apply BitVec.eq_of_getLsbD_eq
  intro k hk
  simp only [formatI, BitVec.getLsbD_extractLsb', BitVec.getLsbD_append]
  interval_cases k <;> simp

@[simp] theorem formatI_d (op : BitVec 6) (d a : Reg) (i : BitVec 16) : (formatI op d a i).extractLsb' 21 5 = regBits d := by
  apply BitVec.eq_of_getLsbD_eq
  intro k hk
  simp only [formatI, BitVec.getLsbD_extractLsb', BitVec.getLsbD_append]
  interval_cases k <;> simp

@[simp] theorem formatI_a (op : BitVec 6) (d a : Reg) (i : BitVec 16) : (formatI op d a i).extractLsb' 16 5 = regBits a := by
  apply BitVec.eq_of_getLsbD_eq
  intro k hk
  simp only [formatI, BitVec.getLsbD_extractLsb', BitVec.getLsbD_append]
  interval_cases k <;> simp

@[simp] theorem formatI_imm (op : BitVec 6) (d a : Reg) (i : BitVec 16) : (formatI op d a i).extractLsb' 0 16 = i := by
  apply BitVec.eq_of_getLsbD_eq
  intro k hk
  simp only [formatI, BitVec.getLsbD_extractLsb', BitVec.getLsbD_append]
  interval_cases k <;> simp

/-! ### formatSh -/

@[simp] theorem formatSh_opcode (op : BitVec 2) (d a : Reg) (l : Nat) : (formatSh op d a l).extractLsb' 26 6 = 0x2E#6 := by
  apply BitVec.eq_of_getLsbD_eq
  intro k hk
  simp only [formatSh, BitVec.getLsbD_extractLsb', BitVec.getLsbD_append]
  interval_cases k <;> simp

@[simp] theorem formatSh_d (op : BitVec 2) (d a : Reg) (l : Nat) : (formatSh op d a l).extractLsb' 21 5 = regBits d := by
  apply BitVec.eq_of_getLsbD_eq
  intro k hk
  simp only [formatSh, BitVec.getLsbD_extractLsb', BitVec.getLsbD_append]
  interval_cases k <;> simp

@[simp] theorem formatSh_a (op : BitVec 2) (d a : Reg) (l : Nat) : (formatSh op d a l).extractLsb' 16 5 = regBits a := by
  apply BitVec.eq_of_getLsbD_eq
  intro k hk
  simp only [formatSh, BitVec.getLsbD_extractLsb', BitVec.getLsbD_append]
  interval_cases k <;> simp

@[simp] theorem formatSh_select (op : BitVec 2) (d a : Reg) (l : Nat) : (formatSh op d a l).extractLsb' 6 2 = op := by
  apply BitVec.eq_of_getLsbD_eq
  intro k hk
  simp only [formatSh, BitVec.getLsbD_extractLsb', BitVec.getLsbD_append]
  interval_cases k <;> simp

@[simp] theorem formatSh_amount (op : BitVec 2) (d a : Reg) (l : Nat) : (formatSh op d a l).extractLsb' 0 6 = BitVec.ofNat 6 l := by
  apply BitVec.eq_of_getLsbD_eq
  intro k hk
  simp only [formatSh, BitVec.getLsbD_extractLsb', BitVec.getLsbD_append]
  interval_cases k <;> simp

/-! ### formatSfi -/

@[simp] theorem formatSfi_opcode (cond : BitVec 5) (a : Reg) (i : BitVec 16) : (formatSfi cond a i).extractLsb' 26 6 = 0x2F#6 := by
  apply BitVec.eq_of_getLsbD_eq
  intro k hk
  simp only [formatSfi, BitVec.getLsbD_extractLsb', BitVec.getLsbD_append]
  interval_cases k <;> simp

@[simp] theorem formatSfi_condition (cond : BitVec 5) (a : Reg) (i : BitVec 16) : (formatSfi cond a i).extractLsb' 21 5 = cond := by
  apply BitVec.eq_of_getLsbD_eq
  intro k hk
  simp only [formatSfi, BitVec.getLsbD_extractLsb', BitVec.getLsbD_append]
  interval_cases k <;> simp

@[simp] theorem formatSfi_a (cond : BitVec 5) (a : Reg) (i : BitVec 16) : (formatSfi cond a i).extractLsb' 16 5 = regBits a := by
  apply BitVec.eq_of_getLsbD_eq
  intro k hk
  simp only [formatSfi, BitVec.getLsbD_extractLsb', BitVec.getLsbD_append]
  interval_cases k <;> simp

@[simp] theorem formatSfi_imm (cond : BitVec 5) (a : Reg) (i : BitVec 16) : (formatSfi cond a i).extractLsb' 0 16 = i := by
  apply BitVec.eq_of_getLsbD_eq
  intro k hk
  simp only [formatSfi, BitVec.getLsbD_extractLsb', BitVec.getLsbD_append]
  interval_cases k <;> simp

/-! ### formatSf -/

@[simp] theorem formatSf_opcode (cond : BitVec 5) (a b : Reg) : (formatSf cond a b).extractLsb' 26 6 = 0x39#6 := by
  apply BitVec.eq_of_getLsbD_eq
  intro k hk
  simp only [formatSf, BitVec.getLsbD_extractLsb', BitVec.getLsbD_append]
  interval_cases k <;> simp

@[simp] theorem formatSf_condition (cond : BitVec 5) (a b : Reg) : (formatSf cond a b).extractLsb' 21 5 = cond := by
  apply BitVec.eq_of_getLsbD_eq
  intro k hk
  simp only [formatSf, BitVec.getLsbD_extractLsb', BitVec.getLsbD_append]
  interval_cases k <;> simp

@[simp] theorem formatSf_a (cond : BitVec 5) (a b : Reg) : (formatSf cond a b).extractLsb' 16 5 = regBits a := by
  apply BitVec.eq_of_getLsbD_eq
  intro k hk
  simp only [formatSf, BitVec.getLsbD_extractLsb', BitVec.getLsbD_append]
  interval_cases k <;> simp

@[simp] theorem formatSf_b (cond : BitVec 5) (a b : Reg) : (formatSf cond a b).extractLsb' 11 5 = regBits b := by
  apply BitVec.eq_of_getLsbD_eq
  intro k hk
  simp only [formatSf, BitVec.getLsbD_extractLsb', BitVec.getLsbD_append]
  interval_cases k <;> simp

/-! ### formatS -/

@[simp] theorem formatS_opcode (op : BitVec 6) (a b : Reg) (i : BitVec 16) : (formatS op a b i).extractLsb' 26 6 = op := by
  apply BitVec.eq_of_getLsbD_eq
  intro k hk
  simp only [formatS, BitVec.getLsbD_extractLsb', BitVec.getLsbD_append]
  interval_cases k <;> simp

@[simp] theorem formatS_high (op : BitVec 6) (a b : Reg) (i : BitVec 16) : (formatS op a b i).extractLsb' 21 5 = i.extractLsb' 11 5 := by
  apply BitVec.eq_of_getLsbD_eq
  intro k hk
  simp only [formatS, BitVec.getLsbD_extractLsb', BitVec.getLsbD_append]
  interval_cases k <;> simp

@[simp] theorem formatS_a (op : BitVec 6) (a b : Reg) (i : BitVec 16) : (formatS op a b i).extractLsb' 16 5 = regBits a := by
  apply BitVec.eq_of_getLsbD_eq
  intro k hk
  simp only [formatS, BitVec.getLsbD_extractLsb', BitVec.getLsbD_append]
  interval_cases k <;> simp

@[simp] theorem formatS_b (op : BitVec 6) (a b : Reg) (i : BitVec 16) : (formatS op a b i).extractLsb' 11 5 = regBits b := by
  apply BitVec.eq_of_getLsbD_eq
  intro k hk
  simp only [formatS, BitVec.getLsbD_extractLsb', BitVec.getLsbD_append]
  interval_cases k <;> simp

@[simp] theorem formatS_low (op : BitVec 6) (a b : Reg) (i : BitVec 16) : (formatS op a b i).extractLsb' 0 11 = i.extractLsb' 0 11 := by
  apply BitVec.eq_of_getLsbD_eq
  intro k hk
  simp only [formatS, BitVec.getLsbD_extractLsb', BitVec.getLsbD_append]
  interval_cases k <;> simp

/-! ### formatR -/

@[simp] theorem formatR_opcode (op2 op3 : BitVec 2) (op1 : BitVec 4) (d a b : Reg) : (formatR op2 op3 op1 d a b).extractLsb' 26 6 = 0x38#6 := by
  apply BitVec.eq_of_getLsbD_eq
  intro k hk
  simp only [formatR, BitVec.getLsbD_extractLsb', BitVec.getLsbD_append]
  interval_cases k <;> simp

@[simp] theorem formatR_d (op2 op3 : BitVec 2) (op1 : BitVec 4) (d a b : Reg) : (formatR op2 op3 op1 d a b).extractLsb' 21 5 = regBits d := by
  apply BitVec.eq_of_getLsbD_eq
  intro k hk
  simp only [formatR, BitVec.getLsbD_extractLsb', BitVec.getLsbD_append]
  interval_cases k <;> simp

@[simp] theorem formatR_a (op2 op3 : BitVec 2) (op1 : BitVec 4) (d a b : Reg) : (formatR op2 op3 op1 d a b).extractLsb' 16 5 = regBits a := by
  apply BitVec.eq_of_getLsbD_eq
  intro k hk
  simp only [formatR, BitVec.getLsbD_extractLsb', BitVec.getLsbD_append]
  interval_cases k <;> simp

@[simp] theorem formatR_b (op2 op3 : BitVec 2) (op1 : BitVec 4) (d a b : Reg) : (formatR op2 op3 op1 d a b).extractLsb' 11 5 = regBits b := by
  apply BitVec.eq_of_getLsbD_eq
  intro k hk
  simp only [formatR, BitVec.getLsbD_extractLsb', BitVec.getLsbD_append]
  interval_cases k <;> simp

@[simp] theorem formatR_op2 (op2 op3 : BitVec 2) (op1 : BitVec 4) (d a b : Reg) : (formatR op2 op3 op1 d a b).extractLsb' 8 2 = op2 := by
  apply BitVec.eq_of_getLsbD_eq
  intro k hk
  simp only [formatR, BitVec.getLsbD_extractLsb', BitVec.getLsbD_append]
  interval_cases k <;> simp

@[simp] theorem formatR_op3 (op2 op3 : BitVec 2) (op1 : BitVec 4) (d a b : Reg) : (formatR op2 op3 op1 d a b).extractLsb' 6 2 = op3 := by
  apply BitVec.eq_of_getLsbD_eq
  intro k hk
  simp only [formatR, BitVec.getLsbD_extractLsb', BitVec.getLsbD_append]
  interval_cases k <;> simp

@[simp] theorem formatR_op1 (op2 op3 : BitVec 2) (op1 : BitVec 4) (d a b : Reg) : (formatR op2 op3 op1 d a b).extractLsb' 0 4 = op1 := by
  apply BitVec.eq_of_getLsbD_eq
  intro k hk
  simp only [formatR, BitVec.getLsbD_extractLsb', BitVec.getLsbD_append]
  interval_cases k <;> simp

/-! ### The masks of the opcode table -/

/-- What the mask 0xFC000000 of the opcode table leaves of a word. -/
theorem primary_mask (w : Word) : w &&& 0xFC000000#32 = (w.extractLsb' 26 6 ++ 0#26 : Word) := by
  apply BitVec.eq_of_getLsbD_eq
  intro k hk
  simp only [BitVec.getLsbD_and, BitVec.getLsbD_append, BitVec.getLsbD_extractLsb']
  interval_cases k <;> simp

/-- What the mask 0xFF000000 of the opcode table leaves of a word. -/
theorem nop_mask (w : Word) : w &&& 0xFF000000#32 = (w.extractLsb' 26 6 ++ w.extractLsb' 24 2 ++ 0#24 : Word) := by
  apply BitVec.eq_of_getLsbD_eq
  intro k hk
  simp only [BitVec.getLsbD_and, BitVec.getLsbD_append, BitVec.getLsbD_extractLsb']
  interval_cases k <;> simp

/-- What the mask 0xFC010000 of the opcode table leaves of a word. -/
theorem movhi_mask (w : Word) : w &&& 0xFC010000#32 = (w.extractLsb' 26 6 ++ 0#9 ++ w.extractLsb' 16 1 ++ 0#16 : Word) := by
  apply BitVec.eq_of_getLsbD_eq
  intro k hk
  simp only [BitVec.getLsbD_and, BitVec.getLsbD_append, BitVec.getLsbD_extractLsb']
  interval_cases k <;> simp

/-- What the mask 0xFFFF0000 of the opcode table leaves of a word. -/
theorem sys_mask (w : Word) : w &&& 0xFFFF0000#32 = (w.extractLsb' 16 16 ++ 0#16 : Word) := by
  apply BitVec.eq_of_getLsbD_eq
  intro k hk
  simp only [BitVec.getLsbD_and, BitVec.getLsbD_append, BitVec.getLsbD_extractLsb']
  interval_cases k <;> simp

/-- What the mask 0xFC0000C0 of the opcode table leaves of a word. -/
theorem shift_mask (w : Word) : w &&& 0xFC0000C0#32 = (w.extractLsb' 26 6 ++ 0#18 ++ w.extractLsb' 6 2 ++ 0#6 : Word) := by
  apply BitVec.eq_of_getLsbD_eq
  intro k hk
  simp only [BitVec.getLsbD_and, BitVec.getLsbD_append, BitVec.getLsbD_extractLsb']
  interval_cases k <;> simp

/-- What the mask 0xFFE00000 of the opcode table leaves of a word. -/
theorem setFlag_mask (w : Word) : w &&& 0xFFE00000#32 = (w.extractLsb' 26 6 ++ w.extractLsb' 21 5 ++ 0#21 : Word) := by
  apply BitVec.eq_of_getLsbD_eq
  intro k hk
  simp only [BitVec.getLsbD_and, BitVec.getLsbD_append, BitVec.getLsbD_extractLsb']
  interval_cases k <;> simp

/-- What the mask 0xFC00030F of the opcode table leaves of a word. -/
theorem alu_mask (w : Word) : w &&& 0xFC00030F#32 = (w.extractLsb' 26 6 ++ 0#16 ++ w.extractLsb' 8 2 ++ 0#4 ++ w.extractLsb' 0 4 : Word) := by
  apply BitVec.eq_of_getLsbD_eq
  intro k hk
  simp only [BitVec.getLsbD_and, BitVec.getLsbD_append, BitVec.getLsbD_extractLsb']
  interval_cases k <;> simp

/-- What the mask 0xFC0003CF of the opcode table leaves of a word. -/
theorem aluKind_mask (w : Word) : w &&& 0xFC0003CF#32 = (w.extractLsb' 26 6 ++ 0#16 ++ w.extractLsb' 8 2 ++ w.extractLsb' 6 2 ++ 0#2 ++ w.extractLsb' 0 4 : Word) := by
  apply BitVec.eq_of_getLsbD_eq
  intro k hk
  simp only [BitVec.getLsbD_and, BitVec.getLsbD_append, BitVec.getLsbD_extractLsb']
  interval_cases k <;> simp

/-! ### The fixed bits of a word the encoder builds -/

theorem formatJ_mask (op : BitVec 6) (n : BitVec 26) : formatJ op n &&& 0xFC000000#32 = (op ++ 0#26 : Word) := by
  simp [primary_mask]

theorem formatJR_mask (op : BitVec 6) (b : Reg) : formatJR op b &&& 0xFC000000#32 = (op ++ 0#26 : Word) := by
  simp [primary_mask]

theorem formatNop_mask (k : BitVec 16) : formatNop k &&& 0xFF000000#32 = (0x15000000#32 : Word) := by
  simp [nop_mask]

theorem formatMovhi_mask (d : Reg) (k : BitVec 16) : formatMovhi d k &&& 0xFC010000#32 = (0x18000000#32 : Word) := by
  simp [movhi_mask]

theorem formatSys_mask (sel k : BitVec 16) : formatSys sel k &&& 0xFFFF0000#32 = (sel ++ 0#16 : Word) := by
  simp [sys_mask]

theorem formatI_mask (op : BitVec 6) (d a : Reg) (i : BitVec 16) : formatI op d a i &&& 0xFC000000#32 = (op ++ 0#26 : Word) := by
  simp [primary_mask]

theorem formatSh_mask (op : BitVec 2) (d a : Reg) (l : Nat) : formatSh op d a l &&& 0xFC0000C0#32 = (0x2E#6 ++ 0#18 ++ op ++ 0#6 : Word) := by
  simp [shift_mask]

theorem formatSfi_mask (cond : BitVec 5) (a : Reg) (i : BitVec 16) : formatSfi cond a i &&& 0xFFE00000#32 = (0x2F#6 ++ cond ++ 0#21 : Word) := by
  simp [setFlag_mask]

theorem formatSf_mask (cond : BitVec 5) (a b : Reg) : formatSf cond a b &&& 0xFFE00000#32 = (0x39#6 ++ cond ++ 0#21 : Word) := by
  simp [setFlag_mask]

theorem formatS_mask (op : BitVec 6) (a b : Reg) (i : BitVec 16) : formatS op a b i &&& 0xFC000000#32 = (op ++ 0#26 : Word) := by
  simp [primary_mask]

theorem formatR_mask (op2 op3 : BitVec 2) (op1 : BitVec 4) (d a b : Reg) : formatR op2 op3 op1 d a b &&& 0xFC00030F#32 = (0x38#6 ++ 0#16 ++ op2 ++ 0#4 ++ op1 : Word) := by
  simp [alu_mask]

theorem formatR_kindMask (op2 op3 : BitVec 2) (op1 : BitVec 4) (d a b : Reg) : formatR op2 op3 op1 d a b &&& 0xFC0003CF#32 = (0x38#6 ++ 0#16 ++ op2 ++ op3 ++ 0#2 ++ op1 : Word) := by
  simp [aluKind_mask]

end Sys2Proof
end

