-- ==== Sys2Proof/Laws/Spr.lean ====
section
/-! SUPPORT. The special registers by number: what an address names, and `l.mfspr` and `l.mtspr` where they may execute. -/

namespace Sys2Proof.Machine

theorem systemDenied_eq_false (s : State) : s.systemDenied = false ↔ SystemAllowed s := by
  simp only [State.systemDenied, SystemAllowed]
  cases s.sm <;> cases s.cfg.userSystemAccess <;> decide

theorem sprAddress_toNat (a : Reg) (k : BitVec 16) (s : State) : (s.sprAddress a k).toNat = sprNumber a k s := by
  simp [State.sprAddress, sprNumber, lowHalf, zext16, BitVec.extractLsb'_toNat]

theorem sprAddress_eq {a : Reg} {k : BitVec 16} {s : State} {n : Nat} (h : sprNumber a k s = n) :
    s.sprAddress a k = BitVec.ofNat 16 n := by
  rw [← h, ← sprAddress_toNat, BitVec.ofNat_toNat, BitVec.setWidth_eq]

/-- The register an address names, by its group and index as numbers (10_state.md R45, R46). -/
theorem decodeSpr_eq (a : BitVec 16) : decodeSpr a = (match a.toNat / 2048 with
    | 0 => systemSpr (a.toNat % 2048)
    | 1 => mmuSpr .data (a.toNat % 2048)
    | 2 => mmuSpr .insn (a.toNat % 2048)
    | 9 => if a.toNat % 2048 = 0 then .picmr else if a.toNat % 2048 = 2 then .picsr else .unnamed
    | 10 => if a.toNat % 2048 = 0 then .ttmr else if a.toNat % 2048 = 1 then .ttcr else .unnamed
    | _ => .unnamed) := by
  have h1 : (a.extractLsb' 0 11).toNat = a.toNat % 2048 := by simp [BitVec.extractLsb'_toNat]
  have h2 : (a.extractLsb' 11 5).toNat = a.toNat / 2048 := by
    simp [BitVec.extractLsb'_toNat, Nat.shiftRight_eq_div_pow]; omega
  rw [decodeSpr, h1, h2] <;> rfl

/-- SR has one address. -/
theorem decodeSpr_sr {a : BitVec 16} (h : decodeSpr a = .sr) : a = 0x0011#16 := by
  have hm : ∀ side index, mmuSpr side index ≠ .sr := by
    intro side index
    unfold mmuSpr
    repeat' split
    all_goals simp
  have hs : ∀ index, systemSpr index = .sr → index = 17 := by
    intro index
    unfold systemSpr
    split <;> simp
  apply BitVec.eq_of_toNat_eq
  rw [decodeSpr_eq] at h
  split at h
  · have := hs _ h; change _ = 17; omega
  · exact absurd h (hm _ _)
  · exact absurd h (hm _ _)
  · repeat' split at h
    all_goals cases h
  · repeat' split at h
    all_goals cases h
  · cases h

/-- The addresses of the TLB registers that translation uses. -/
theorem decodeSpr_usedSets : ∀ set (h : set < 64),
    decodeSpr (BitVec.ofNat 16 (0x0A00 + set)) = .tlbmr .data ⟨set, by omega⟩ ∧
      decodeSpr (BitVec.ofNat 16 (0x0A80 + set)) = .tlbtr .data ⟨set, by omega⟩ ∧
      decodeSpr (BitVec.ofNat 16 (0x1200 + set)) = .tlbmr .insn ⟨set, by omega⟩ ∧
      decodeSpr (BitVec.ofNat 16 (0x1280 + set)) = .tlbtr .insn ⟨set, by omega⟩ := by
  decide

/-- The addresses of the TLB registers that translation never reads. -/
theorem decodeSpr_otherSets : ∀ set (h : set < 64),
    decodeSpr (BitVec.ofNat 16 (0x0A40 + set)) = .tlbmr .data ⟨64 + set, by omega⟩ ∧
      decodeSpr (BitVec.ofNat 16 (0x0AC0 + set)) = .tlbtr .data ⟨64 + set, by omega⟩ ∧
      decodeSpr (BitVec.ofNat 16 (0x1240 + set)) = .tlbmr .insn ⟨64 + set, by omega⟩ ∧
      decodeSpr (BitVec.ofNat 16 (0x12C0 + set)) = .tlbtr .insn ⟨64 + set, by omega⟩ := by
  decide

theorem exec_mfspr {d a : Reg} {k : BitVec 16} {s : State} (h : SystemAllowed s) :
    exec (.mfspr d a k) s = writeBack d (sprRead (decodeSpr (s.sprAddress a k)) s).1
      (sprRead (decodeSpr (s.sprAddress a k)) s).2 := by
  change (if s.systemDenied then _ else _) = _
  rw [(systemDenied_eq_false s).2 h]
  rfl

theorem exec_mtspr {a b : Reg} {k : BitVec 16} {s : State} (h : SystemAllowed s) :
    exec (.mtspr a b k) s = goOn (sprWrite (decodeSpr (s.sprAddress a k)) (s.reg b) s) := by
  change (if s.systemDenied then _ else _) = _
  rw [(systemDenied_eq_false s).2 h]
  rfl

end Sys2Proof.Machine
end

