-- ==== Sys2Proof/Laws/Host.lean ====
section
/-! SUPPORT. What a call of the host can do, said once: the interrupt word and its edges, the start of a Run call, and the
writes of SR. -/

namespace Sys2Proof.Machine

/-! ### The interrupt sample -/

/-- The interrupt word bit by bit: the peripheral's bit only (60_exceptions.md R293). -/
theorem interruptWord_getLsbD (cfg : Config) (asserted : Bool) (k : Nat) :
    (interruptWord cfg asserted).getLsbD k = (asserted && decide (k = cfg.uartIrqBit.val)) := by
  have hb := cfg.uartIrqBit.isLt
  cases asserted
  · simp [interruptWord]
  · simp only [interruptWord, if_true, BitVec.getLsbD_shiftLeft, BitVec.getLsbD_one, Bool.true_and]
    by_cases h : k = cfg.uartIrqBit.val
    · simp [h, hb]
    · have : k < cfg.uartIrqBit.val ∨ ¬k - cfg.uartIrqBit.val = 0 := by omega
      rcases this with h' | h' <;> simp [h, h']

/-- A rising edge of a permitted line (R290). -/
theorem edges_getLsbD (s : State) (w : Word) (k : Nat) :
    (s.edges w).getLsbD k = (w.getLsbD k && !s.picsr.getLsbD k && s.picmr.getLsbD k) := by
  by_cases h : k < 32
  · simp [State.edges, h]
  · simp [State.edges, BitVec.getLsbD_of_ge _ k (Nat.le_of_not_lt h)]

theorem edges_eq_zero {s : State} {w : Word}
    (h : ∀ k < 32, w.getLsbD k = true → s.picmr.getLsbD k = true → s.picsr.getLsbD k = true) : s.edges w = 0#32 := by
  apply BitVec.eq_of_getLsbD_eq
  intro k hk
  have := h k hk
  rw [edges_getLsbD]
  cases hw : w.getLsbD k <;> cases hm : s.picmr.getLsbD k <;> simp_all

/-- The edges of the word the bus presents: the peripheral's line, risen and permitted (R290, R293). -/
theorem edges_interruptWord (s : State) (asserted : Bool) :
    s.edges (interruptWord s.cfg asserted) ≠ 0#32 ↔
      asserted = true ∧ s.picsr.getLsbD s.cfg.uartIrqBit = false ∧ s.picmr.getLsbD s.cfg.uartIrqBit = true := by
  constructor
  · intro hne
    by_contra hc
    refine hne (edges_eq_zero fun k _ hw hm => ?_)
    rw [interruptWord_getLsbD, Bool.and_eq_true, decide_eq_true_eq] at hw
    obtain ⟨ha, rfl⟩ := hw
    by_contra hp
    exact hc ⟨ha, by simpa using hp, hm⟩
  · rintro ⟨ha, hp, hm⟩ h0
    have := edges_getLsbD s (interruptWord s.cfg asserted) s.cfg.uartIrqBit
    rw [h0, interruptWord_getLsbD, ha, hp, hm] at this
    simp at this

/-- A Run call starts with the external interrupt, or with its budget (R290). -/
theorem startRun_cases (n : Nat) (asserted : Bool) (s : State) :
    ((s.edges (interruptWord s.cfg asserted) ≠ 0#32 ∧ s.iee = true) ∧
        startRun n asserted s = dispatch .external s.pc { s with picsr := interruptWord s.cfg asserted }) ∨
      (¬(s.edges (interruptWord s.cfg asserted) ≠ 0#32 ∧ s.iee = true) ∧
        startRun n asserted s = { s with picsr := interruptWord s.cfg asserted, run := budgetStatus n }) := by
  by_cases h : s.edges (interruptWord s.cfg asserted) ≠ 0#32 ∧ s.iee = true
  · exact .inl ⟨h, by simp only [startRun, sampleInterrupts, if_pos h]⟩
  · exact .inr ⟨h, by simp only [startRun, sampleInterrupts, if_neg h]⟩

/-! ### The writes of SR -/

/-- What the calls of the host do to SR: Reset and the external interrupt set it to its reset value, SetSpReg of SR writes
it, and every other call keeps it. -/
theorem hostCall_sr {c : HostCall} {s t : State} (h : hostCall c s = .next t) :
    t.sr = s.sr ∨ t.sr = 0x00008001#32 ∨ ∃ a v, c = .setSpr a v ∧ decodeSpr a = .sr ∧ t.sr = v ||| srFO := by
  cases c with
  | reset => cases h; exact .inr (.inl rfl)
  | run n asserted =>
    cases h
    obtain ⟨_, hs⟩ | ⟨_, hs⟩ := startRun_cases n asserted s
    · rw [hs]; exact .inr (.inl rfl)
    · rw [hs]; exact .inl rfl
  | setReg r v => cases h; exact .inl (by simp)
  | setPc v => cases h; exact .inl rfl
  | setSpr a v =>
    cases h
    by_cases ha : decodeSpr a = .sr
    · exact .inr (.inr ⟨a, v, rfl, ha, by rw [ha]; rfl⟩)
    · exact .inl ((sprWrite_frame _ v s).2.2.2.2.2.2.2.2.2.2.2.1 ha)
  | loadImage offset bytes =>
    rw [hostCall, loadImage] at h
    split at h
    · cases h
    · split at h
      · cases h
      · cases h; exact .inl rfl
  | keypress b => cases h; exact .inl rfl
  | drainOutput => cases h; exact .inl rfl

end Sys2Proof.Machine
end

