-- ==== Sys2Proof/Laws/PerInstr.lean ====
section
/-! SUPPORT. Statements about every instruction as syntax, one lemma per constructor. -/

namespace Sys2Proof.Laws.RowBits

/-- The word the encoder builds has the fixed bits of its row in spec/opcode_table.json (30_encoding.md R115). -/
def Statement (i : Instr) : Prop := encode i &&& i.rowMask = i.rowMatch

theorem movhi (d : Reg) (k : BitVec 16) : Statement (.movhi d k) := formatMovhi_mask d k

theorem addi (d a : Reg) (i : BitVec 16) : Statement (.addi d a i) := formatI_mask 0x27#6 d a i

theorem andi (d a : Reg) (k : BitVec 16) : Statement (.andi d a k) := formatI_mask 0x29#6 d a k

theorem ori (d a : Reg) (k : BitVec 16) : Statement (.ori d a k) := formatI_mask 0x2A#6 d a k

theorem xori (d a : Reg) (i : BitVec 16) : Statement (.xori d a i) := formatI_mask 0x2B#6 d a i

theorem muli (d a : Reg) (i : BitVec 16) : Statement (.muli d a i) := formatI_mask 0x2C#6 d a i

theorem slli (d a : Reg) (l : Nat) : Statement (.slli d a l) := formatSh_mask 0#2 d a l

theorem srli (d a : Reg) (l : Nat) : Statement (.srli d a l) := formatSh_mask 1#2 d a l

theorem srai (d a : Reg) (l : Nat) : Statement (.srai d a l) := formatSh_mask 2#2 d a l

theorem rori (d a : Reg) (l : Nat) : Statement (.rori d a l) := formatSh_mask 3#2 d a l

theorem add (d a b : Reg) : Statement (.add d a b) := formatR_mask 0#2 0#2 0x0#4 d a b

theorem sub (d a b : Reg) : Statement (.sub d a b) := formatR_mask 0#2 0#2 0x2#4 d a b

theorem and (d a b : Reg) : Statement (.and d a b) := formatR_mask 0#2 0#2 0x3#4 d a b

theorem or (d a b : Reg) : Statement (.or d a b) := formatR_mask 0#2 0#2 0x4#4 d a b

theorem xor (d a b : Reg) : Statement (.xor d a b) := formatR_mask 0#2 0#2 0x5#4 d a b

theorem mul (d a b : Reg) : Statement (.mul d a b) := formatR_mask 3#2 0#2 0x6#4 d a b

theorem mulu (d a b : Reg) : Statement (.mulu d a b) := formatR_mask 3#2 0#2 0xB#4 d a b

theorem div (d a b : Reg) : Statement (.div d a b) := formatR_mask 3#2 0#2 0x9#4 d a b

theorem divu (d a b : Reg) : Statement (.divu d a b) := formatR_mask 3#2 0#2 0xA#4 d a b

theorem sll (d a b : Reg) : Statement (.sll d a b) := formatR_kindMask 0#2 0#2 0x8#4 d a b

theorem srl (d a b : Reg) : Statement (.srl d a b) := formatR_kindMask 0#2 1#2 0x8#4 d a b

theorem sra (d a b : Reg) : Statement (.sra d a b) := formatR_kindMask 0#2 2#2 0x8#4 d a b

theorem ror (d a b : Reg) : Statement (.ror d a b) := formatR_kindMask 0#2 3#2 0x8#4 d a b

theorem exths (d a : Reg) : Statement (.exths d a) := formatR_kindMask 0#2 0#2 0xC#4 d a 0

theorem extbs (d a : Reg) : Statement (.extbs d a) := formatR_kindMask 0#2 1#2 0xC#4 d a 0

theorem exthz (d a : Reg) : Statement (.exthz d a) := formatR_kindMask 0#2 2#2 0xC#4 d a 0

theorem extbz (d a : Reg) : Statement (.extbz d a) := formatR_kindMask 0#2 3#2 0xC#4 d a 0

theorem cmov (d a b : Reg) : Statement (.cmov d a b) := formatR_mask 0#2 0#2 0xE#4 d a b

theorem ff1 (d a : Reg) : Statement (.ff1 d a) := formatR_mask 0#2 0#2 0xF#4 d a 0

theorem fl1 (d a : Reg) : Statement (.fl1 d a) := formatR_mask 1#2 0#2 0xF#4 d a 0

theorem sfeq (a b : Reg) : Statement (.sfeq a b) := formatSf_mask 0x00#5 a b

theorem sfne (a b : Reg) : Statement (.sfne a b) := formatSf_mask 0x01#5 a b

theorem sfgtu (a b : Reg) : Statement (.sfgtu a b) := formatSf_mask 0x02#5 a b

theorem sfgeu (a b : Reg) : Statement (.sfgeu a b) := formatSf_mask 0x03#5 a b

theorem sfltu (a b : Reg) : Statement (.sfltu a b) := formatSf_mask 0x04#5 a b

theorem sfleu (a b : Reg) : Statement (.sfleu a b) := formatSf_mask 0x05#5 a b

theorem sfgts (a b : Reg) : Statement (.sfgts a b) := formatSf_mask 0x0A#5 a b

theorem sfges (a b : Reg) : Statement (.sfges a b) := formatSf_mask 0x0B#5 a b

theorem sflts (a b : Reg) : Statement (.sflts a b) := formatSf_mask 0x0C#5 a b

theorem sfles (a b : Reg) : Statement (.sfles a b) := formatSf_mask 0x0D#5 a b

theorem sfeqi (a : Reg) (i : BitVec 16) : Statement (.sfeqi a i) := formatSfi_mask 0x00#5 a i

theorem sfnei (a : Reg) (i : BitVec 16) : Statement (.sfnei a i) := formatSfi_mask 0x01#5 a i

theorem sfgtui (a : Reg) (i : BitVec 16) : Statement (.sfgtui a i) := formatSfi_mask 0x02#5 a i

theorem sfgeui (a : Reg) (i : BitVec 16) : Statement (.sfgeui a i) := formatSfi_mask 0x03#5 a i

theorem sfltui (a : Reg) (i : BitVec 16) : Statement (.sfltui a i) := formatSfi_mask 0x04#5 a i

theorem sfleui (a : Reg) (i : BitVec 16) : Statement (.sfleui a i) := formatSfi_mask 0x05#5 a i

theorem sfgtsi (a : Reg) (i : BitVec 16) : Statement (.sfgtsi a i) := formatSfi_mask 0x0A#5 a i

theorem sfgesi (a : Reg) (i : BitVec 16) : Statement (.sfgesi a i) := formatSfi_mask 0x0B#5 a i

theorem sfltsi (a : Reg) (i : BitVec 16) : Statement (.sfltsi a i) := formatSfi_mask 0x0C#5 a i

theorem sflesi (a : Reg) (i : BitVec 16) : Statement (.sflesi a i) := formatSfi_mask 0x0D#5 a i

theorem j (n : BitVec 26) : Statement (.j n) := formatJ_mask 0x00#6 n

theorem jal (n : BitVec 26) : Statement (.jal n) := formatJ_mask 0x01#6 n

theorem bnf (n : BitVec 26) : Statement (.bnf n) := formatJ_mask 0x03#6 n

theorem bf (n : BitVec 26) : Statement (.bf n) := formatJ_mask 0x04#6 n

theorem jr (b : Reg) : Statement (.jr b) := formatJR_mask 0x11#6 b

theorem jalr (b : Reg) : Statement (.jalr b) := formatJR_mask 0x12#6 b

theorem nop (k : BitVec 16) : Statement (.nop k) := formatNop_mask k

theorem lwz (d a : Reg) (i : BitVec 16) : Statement (.lwz d a i) := formatI_mask 0x21#6 d a i

theorem lws (d a : Reg) (i : BitVec 16) : Statement (.lws d a i) := formatI_mask 0x22#6 d a i

theorem lbz (d a : Reg) (i : BitVec 16) : Statement (.lbz d a i) := formatI_mask 0x23#6 d a i

theorem lbs (d a : Reg) (i : BitVec 16) : Statement (.lbs d a i) := formatI_mask 0x24#6 d a i

theorem lhz (d a : Reg) (i : BitVec 16) : Statement (.lhz d a i) := formatI_mask 0x25#6 d a i

theorem lhs (d a : Reg) (i : BitVec 16) : Statement (.lhs d a i) := formatI_mask 0x26#6 d a i

theorem sw (a b : Reg) (i : BitVec 16) : Statement (.sw a b i) := formatS_mask 0x35#6 a b i

theorem sb (a b : Reg) (i : BitVec 16) : Statement (.sb a b i) := formatS_mask 0x36#6 a b i

theorem sh (a b : Reg) (i : BitVec 16) : Statement (.sh a b i) := formatS_mask 0x37#6 a b i

theorem mfspr (d a : Reg) (k : BitVec 16) : Statement (.mfspr d a k) := formatI_mask 0x2D#6 d a k

theorem mtspr (a b : Reg) (k : BitVec 16) : Statement (.mtspr a b k) := formatS_mask 0x30#6 a b k

theorem sys (k : BitVec 16) : Statement (.sys k) := formatSys_mask 0x2000#16 k

theorem trap (k : BitVec 16) : Statement (.trap k) := formatSys_mask 0x2100#16 k

theorem rfe : Statement .rfe := rfl

theorem msync : Statement .msync := formatSys_mask 0x2200#16 0#16

theorem psync : Statement .psync := formatSys_mask 0x2280#16 0#16

theorem csync : Statement .csync := formatSys_mask 0x2300#16 0#16

theorem addc : Statement .addc := rfl

theorem muld : Statement .muld := rfl

theorem muldu : Statement .muldu := rfl

theorem extws : Statement .extws := rfl

theorem extwz : Statement .extwz := rfl

theorem macrc : Statement .macrc := rfl

theorem adrp : Statement .adrp := rfl

theorem lv : Statement .lv := rfl

theorem maci : Statement .maci := rfl

theorem lf : Statement .lf := rfl

theorem lwa : Statement .lwa := rfl

theorem cust1 : Statement .cust1 := rfl

theorem cust2 : Statement .cust2 := rfl

theorem cust3 : Statement .cust3 := rfl

theorem cust4 : Statement .cust4 := rfl

theorem ld : Statement .ld := rfl

theorem addic : Statement .addic := rfl

theorem mac : Statement .mac := rfl

theorem lfp : Statement .lfp := rfl

theorem swa : Statement .swa := rfl

theorem sd : Statement .sd := rfl

theorem cust5 : Statement .cust5 := rfl

theorem cust6 : Statement .cust6 := rfl

theorem cust7 : Statement .cust7 := rfl

theorem cust8 : Statement .cust8 := rfl

end Sys2Proof.Laws.RowBits
end

