-- ==== Sys2Proof/Tests/Slice0.lean ====
section
/-! SUPPORT. Tests: the smoke test of WellFormed, the decoding of written-out words, single steps with the expected results
of spec/95_test_vectors.md, and for every obligation with hypotheses a state that meets them. -/

namespace Sys2Proof.Tests

open Sys2Proof.Machine

/-! ### Helpers -/

/-- The state the vectors start from: after reset, at pc 0x1000. -/
def start : State := { State.reset with pc := 0x1000#32 }

/-- The state with some registers set. -/
def withRegs (l : List (Reg × Word)) (s : State) : State := l.foldl (fun s p => s.setReg p.1 p.2) s

/-- The state with a word in RAM. -/
def withWord (a : Nat) (w : Word) (s : State) : State := { s with mem := s.mem.writeValue a .word w }

/-- The state with one data TLB entry. -/
def withDtlb (set : Fin 128) (mr tr : Word) (s : State) : State :=
  { s with dmmu := { s.dmmu with mr := s.dmmu.mr.set set mr, tr := s.dmmu.tr.set set tr } }

/-- The state with one instruction TLB entry. -/
def withItlb (set : Fin 128) (mr tr : Word) (s : State) : State :=
  { s with immu := { s.immu with mr := s.immu.mr.set set mr, tr := s.immu.tr.set set tr } }

/-- A flag as a word. -/
def flagWord (b : Bool) : Word := if b then 1#32 else 0#32

/-- What one step at an instruction shows, when it gives a next state. -/
def seen (w : Word) (s : State) (f : State → List Word) : Option (List Word) :=
  match step (s.withFetchWord 32 w.toNat) with
  | .next t => some (f t)
  | _ => none

/-- Why one step at an instruction is refused. -/
def refusalOf (w : Word) (s : State) : Option Refusal :=
  match step (s.withFetchWord 32 w.toNat) with
  | .refused r => some r
  | _ => none

/-- What one step shows, when it gives a next state. -/
def seenStep (s : State) (f : State → List Word) : Option (List Word) :=
  match step s with
  | .next t => some (f t)
  | _ => none

/-! ### WellFormed -/

theorem test_wf_slli_refused : Instr.wf (.slli 1 2 64) = false := by decide

theorem test_wf_srli_refused : Instr.wf (.srli 1 2 64) = false := by decide

theorem test_wf_srai_refused : Instr.wf (.srai 1 2 100) = false := by decide

theorem test_wf_rori_refused : Instr.wf (.rori 1 2 64) = false := by decide

theorem test_wf_boundary : Instr.wf (.rori 31 31 63) = true := by decide

/-! ### Decoding: words written out from the encodings of 30_encoding.md and the words of 95_test_vectors.md -/

theorem test_decode_alu_immediate :
    decode 0x1860ABCD#32 = .ok (.movhi 3 0xABCD) ∧ decode 0x9C64FFFF#32 = .ok (.addi 3 4 0xFFFF) ∧
    decode 0xA464FFFF#32 = .ok (.andi 3 4 0xFFFF) ∧ decode 0xA8648000#32 = .ok (.ori 3 4 0x8000) ∧
    decode 0xAC64FFFF#32 = .ok (.xori 3 4 0xFFFF) ∧ decode 0xB064FFFE#32 = .ok (.muli 3 4 0xFFFE) ∧
    decode 0xB864001F#32 = .ok (.slli 3 4 31) ∧ decode 0xB864005F#32 = .ok (.srli 3 4 31) ∧
    decode 0xB864009F#32 = .ok (.srai 3 4 31) ∧ decode 0xB86400C1#32 = .ok (.rori 3 4 1) := by decide

theorem test_decode_alu_register :
    decode 0xE0642800#32 = .ok (.add 3 4 5) ∧ decode 0xE0642802#32 = .ok (.sub 3 4 5) ∧
    decode 0xE0642803#32 = .ok (.and 3 4 5) ∧ decode 0xE0642804#32 = .ok (.or 3 4 5) ∧
    decode 0xE0642805#32 = .ok (.xor 3 4 5) ∧ decode 0xE0642B06#32 = .ok (.mul 3 4 5) ∧
    decode 0xE0642B0B#32 = .ok (.mulu 3 4 5) ∧ decode 0xE0642B09#32 = .ok (.div 3 4 5) ∧
    decode 0xE0642B0A#32 = .ok (.divu 3 4 5) ∧ decode 0xE0642808#32 = .ok (.sll 3 4 5) ∧
    decode 0xE0642848#32 = .ok (.srl 3 4 5) ∧ decode 0xE0642888#32 = .ok (.sra 3 4 5) ∧
    decode 0xE06428C8#32 = .ok (.ror 3 4 5) ∧ decode 0xE064000C#32 = .ok (.exths 3 4) ∧
    decode 0xE064004C#32 = .ok (.extbs 3 4) ∧ decode 0xE064008C#32 = .ok (.exthz 3 4) ∧
    decode 0xE06400CC#32 = .ok (.extbz 3 4) ∧ decode 0xE064280E#32 = .ok (.cmov 3 4 5) ∧
    decode 0xE064000F#32 = .ok (.ff1 3 4) ∧ decode 0xE064010F#32 = .ok (.fl1 3 4) := by decide

theorem test_decode_compare :
    decode 0xE4042800#32 = .ok (.sfeq 4 5) ∧ decode 0xE4242800#32 = .ok (.sfne 4 5) ∧
    decode 0xE4442800#32 = .ok (.sfgtu 4 5) ∧ decode 0xE4642800#32 = .ok (.sfgeu 4 5) ∧
    decode 0xE4842800#32 = .ok (.sfltu 4 5) ∧ decode 0xE4A42800#32 = .ok (.sfleu 4 5) ∧
    decode 0xE5442800#32 = .ok (.sfgts 4 5) ∧ decode 0xE5642800#32 = .ok (.sfges 4 5) ∧
    decode 0xE5842800#32 = .ok (.sflts 4 5) ∧ decode 0xE5A42800#32 = .ok (.sfles 4 5) ∧
    decode 0xBC04FFFF#32 = .ok (.sfeqi 4 0xFFFF) ∧ decode 0xBC240000#32 = .ok (.sfnei 4 0) ∧
    decode 0xBC448000#32 = .ok (.sfgtui 4 0x8000) ∧ decode 0xBC640001#32 = .ok (.sfgeui 4 1) ∧
    decode 0xBC84FFFF#32 = .ok (.sfltui 4 0xFFFF) ∧ decode 0xBCA48000#32 = .ok (.sfleui 4 0x8000) ∧
    decode 0xBD448000#32 = .ok (.sfgtsi 4 0x8000) ∧ decode 0xBD64FFFF#32 = .ok (.sfgesi 4 0xFFFF) ∧
    decode 0xBD840000#32 = .ok (.sfltsi 4 0) ∧ decode 0xBDA47FFF#32 = .ok (.sflesi 4 0x7FFF) := by decide

theorem test_decode_control :
    decode 0x00000004#32 = .ok (.j 4) ∧ decode 0x04000100#32 = .ok (.jal 0x100) ∧
    decode 0x0C000002#32 = .ok (.bnf 2) ∧ decode 0x13FFFFFE#32 = .ok (.bf 0x3FFFFFE) ∧
    decode 0x44002000#32 = .ok (.jr 4) ∧ decode 0x48004800#32 = .ok (.jalr 9) ∧
    decode 0x15000001#32 = .ok (.nop 1) := by decide

theorem test_decode_memory :
    decode 0x84640000#32 = .ok (.lwz 3 4 0) ∧ decode 0x88E20000#32 = .ok (.lws 7 2 0) ∧
    decode 0x8C640001#32 = .ok (.lbz 3 4 1) ∧ decode 0x91020001#32 = .ok (.lbs 8 2 1) ∧
    decode 0x94640002#32 = .ok (.lhz 3 4 2) ∧ decode 0x99220000#32 = .ok (.lhs 9 2 0) ∧
    decode 0xD4041804#32 = .ok (.sw 4 3 4) ∧ decode 0xD8023001#32 = .ok (.sb 2 6 1) ∧
    decode 0xDC041802#32 = .ok (.sh 4 3 2) ∧ decode 0xD7E41FFC#32 = .ok (.sw 4 3 0xFFFC) := by decide

theorem test_decode_system :
    decode 0xB4600A40#32 = .ok (.mfspr 3 0 0xA40) ∧ decode 0xC0205A02#32 = .ok (.mtspr 0 11 0xA02) ∧
    decode 0x20000001#32 = .ok (.sys 1) ∧ decode 0x21000005#32 = .ok (.trap 5) ∧
    decode 0x24000000#32 = .ok .rfe ∧ decode 0x22000000#32 = .ok .msync ∧
    decode 0x22800000#32 = .ok .psync ∧ decode 0x23000000#32 = .ok .csync := by decide

theorem test_decode_refused_rows :
    decode 0xE0000001#32 = .ok .addc ∧ decode 0xE0642B07#32 = .ok .muld ∧ decode 0xE000030C#32 = .ok .muldu ∧
    decode 0xE000000D#32 = .ok .extws ∧ decode 0xE000004D#32 = .ok .extwz ∧ decode 0x18010000#32 = .ok .macrc ∧
    decode 0x08000000#32 = .ok .adrp ∧ decode 0x28000000#32 = .ok .lv ∧ decode 0x4C000000#32 = .ok .maci ∧
    decode 0x68000000#32 = .ok .lf ∧ decode 0x6C000000#32 = .ok .lwa ∧ decode 0x70000000#32 = .ok .cust1 ∧
    decode 0x74000000#32 = .ok .cust2 ∧ decode 0x78000000#32 = .ok .cust3 ∧ decode 0x7C000000#32 = .ok .cust4 ∧
    decode 0x80000000#32 = .ok .ld ∧ decode 0xA0000000#32 = .ok .addic ∧ decode 0xC4000000#32 = .ok .mac ∧
    decode 0xC8000000#32 = .ok .lfp ∧ decode 0xCC000000#32 = .ok .swa ∧ decode 0xD0000000#32 = .ok .sd ∧
    decode 0xF0000000#32 = .ok .cust5 ∧ decode 0xF4000000#32 = .ok .cust6 ∧ decode 0xF8000000#32 = .ok .cust7 ∧
    decode 0xFC000000#32 = .ok .cust8 := by decide

theorem test_decode_unassigned :
    decode 0x1C000000#32 = .error .unassignedPrimary ∧ decode 0x14000000#32 = .error .unassignedNop ∧
    decode 0xE4C00000#32 = .error .unassignedCondition ∧ decode 0x20010000#32 = .error .unassignedSys ∧
    decode 0xE0000006#32 = .error .unassignedAlu := by decide

/-- Reserved fields do not matter (30_encoding.md R115). -/
theorem test_decode_reserved_fields :
    decode 0x47FF27FF#32 = .ok (.jr 4) ∧ decode 0x15FF0001#32 = .ok (.nop 1) ∧ decode 0x26123456#32 = .ok .rfe ∧
    decode 0xE0642CF0#32 = .ok (.add 3 4 5) := by decide

theorem test_decodeTableWord :
    decodeTableWord 32 0x9C64FFFF = some (.addi 3 4 0xFFFF) ∧ decodeTableWord 32 0x1C000000 = none := by decide

/-! ### One step each, from the vectors of 95_test_vectors.md section 2 -/

/-- 95_test_vectors.md: l.movhi r3,0xABCD. -/
theorem test_movhi :
    seen 0x1860ABCD#32 start (fun t => [t.reg 3, t.pc]) = some [0xABCD0000#32, 0x1004#32] := by decide

/-- 95_test_vectors.md: l.addi r3,r4,-1 (wrap below 0). -/
theorem test_addi :
    seen 0x9C64FFFF#32 start (fun t => [t.reg 3, t.pc]) = some [0xFFFFFFFF#32, 0x1004#32] := by decide

/-- 95_test_vectors.md: l.addi r0,r0,5 (r0 is writable). -/
theorem test_addi_2 : seen 0x9C000005#32 start (fun t => [t.reg 0, t.pc]) = some [0x5#32, 0x1004#32] := by decide

/-- 95_test_vectors.md: l.andi r3,r4,0xFFFF (zero-extended). -/
theorem test_andi :
    seen 0xA464FFFF#32 (withRegs [(4, 0xDEADBEEF#32)] start) (fun t => [t.reg 3, t.pc]) = some [0xBEEF#32, 0x1004#32] := by decide

/-- 95_test_vectors.md: l.ori r3,r4,0x8000 (zero-extended). -/
theorem test_ori :
    seen 0xA8648000#32 (withRegs [(4, 0x12340000#32)] start) (fun t => [t.reg 3, t.pc]) = some [0x12348000#32, 0x1004#32] := by decide

/-- 95_test_vectors.md: l.xori r3,r4,-1 (sign-extended). -/
theorem test_xori :
    seen 0xAC64FFFF#32 (withRegs [(4, 0xF0F0F0F#32)] start) (fun t => [t.reg 3, t.pc]) = some [0xF0F0F0F0#32, 0x1004#32] := by decide

/-- 95_test_vectors.md: l.muli r3,r4,-2. -/
theorem test_muli :
    seen 0xB064FFFE#32 (withRegs [(4, 0x3#32)] start) (fun t => [t.reg 3, t.pc]) = some [0xFFFFFFFA#32, 0x1004#32] := by decide

/-- 95_test_vectors.md: l.slli r3,r4,31. -/
theorem test_slli :
    seen 0xB864001F#32 (withRegs [(4, 0x1#32)] start) (fun t => [t.reg 3, t.pc]) = some [0x80000000#32, 0x1004#32] := by decide

/-- 95_test_vectors.md: l.slli r3,r4,32 (L[5] = 1). -/
theorem test_slli_2 :
    refusalOf 0xB8640020#32 (withRegs [(4, 0x1#32)] start) = some .shiftAmountAbove31 := by decide

/-- 95_test_vectors.md: l.srli r3,r4,31. -/
theorem test_srli :
    seen 0xB864005F#32 (withRegs [(4, 0x80000000#32)] start) (fun t => [t.reg 3, t.pc]) = some [0x1#32, 0x1004#32] := by decide

/-- 95_test_vectors.md: l.srai r3,r4,31. -/
theorem test_srai :
    seen 0xB864009F#32 (withRegs [(4, 0x80000000#32)] start) (fun t => [t.reg 3, t.pc]) = some [0xFFFFFFFF#32, 0x1004#32] := by decide

/-- 95_test_vectors.md: l.rori r3,r4,1. -/
theorem test_rori :
    seen 0xB86400C1#32 (withRegs [(4, 0x1#32)] start) (fun t => [t.reg 3, t.pc]) = some [0x80000000#32, 0x1004#32] := by decide

/-- 95_test_vectors.md: l.add r3,r4,r5 (§8 example). -/
theorem test_add :
    seen 0xE0642800#32 (withRegs [(4, 0x7FFFFFFF#32), (5, 0x1#32)] start) (fun t => [t.reg 3, t.pc]) = some [0x80000000#32, 0x1004#32] := by decide

/-- 95_test_vectors.md: l.add r4,r4,r4 (same register). -/
theorem test_add_2 :
    seen 0xE0842000#32 (withRegs [(4, 0x3#32)] start) (fun t => [t.reg 4, t.pc]) = some [0x6#32, 0x1004#32] := by decide

/-- 95_test_vectors.md: l.sub r3,r4,r5 (0 - 1). -/
theorem test_sub :
    seen 0xE0642802#32 (withRegs [(5, 0x1#32)] start) (fun t => [t.reg 3, t.pc]) = some [0xFFFFFFFF#32, 0x1004#32] := by decide

/-- 95_test_vectors.md: l.sub r3,r4,r5 (INT_MIN - 1). -/
theorem test_sub_2 :
    seen 0xE0642802#32 (withRegs [(4, 0x80000000#32), (5, 0x1#32)] start) (fun t => [t.reg 3, t.pc]) = some [0x7FFFFFFF#32, 0x1004#32] := by decide

/-- 95_test_vectors.md: l.and r3,r4,r5. -/
theorem test_and :
    seen 0xE0642803#32 (withRegs [(4, 0xFF00FF00#32), (5, 0xFF00FF0#32)] start) (fun t => [t.reg 3, t.pc]) = some [0xF000F00#32, 0x1004#32] := by decide

/-- 95_test_vectors.md: l.or r3,r4,r5. -/
theorem test_or :
    seen 0xE0642804#32 (withRegs [(4, 0xFF00FF00#32), (5, 0xFF00FF0#32)] start) (fun t => [t.reg 3, t.pc]) = some [0xFFF0FFF0#32, 0x1004#32] := by decide

/-- 95_test_vectors.md: l.xor r3,r4,r5. -/
theorem test_xor :
    seen 0xE0642805#32 (withRegs [(4, 0xFF00FF00#32), (5, 0xFF00FF0#32)] start) (fun t => [t.reg 3, t.pc]) = some [0xF0F0F0F0#32, 0x1004#32] := by decide

/-- 95_test_vectors.md: l.mul r3,r4,r5 (-1 * -1). -/
theorem test_mul :
    seen 0xE0642B06#32 (withRegs [(4, 0xFFFFFFFF#32), (5, 0xFFFFFFFF#32)] start) (fun t => [t.reg 3, t.pc]) = some [0x1#32, 0x1004#32] := by decide

/-- 95_test_vectors.md: l.mul r3,r4,r5 (-3 * 5). -/
theorem test_mul_2 :
    seen 0xE0642B06#32 (withRegs [(4, 0xFFFFFFFD#32), (5, 0x5#32)] start) (fun t => [t.reg 3, t.pc]) = some [0xFFFFFFF1#32, 0x1004#32] := by decide

/-- 95_test_vectors.md: l.mulu r3,r4,r5 (0xFFFFFFFF^2, low word). -/
theorem test_mulu :
    seen 0xE0642B0B#32 (withRegs [(4, 0xFFFFFFFF#32), (5, 0xFFFFFFFF#32)] start) (fun t => [t.reg 3, t.pc]) = some [0x1#32, 0x1004#32] := by decide

/-- 95_test_vectors.md: l.div r3,r4,r5 (-7 / 2). -/
theorem test_div :
    seen 0xE0642B09#32 (withRegs [(4, 0xFFFFFFF9#32), (5, 0x2#32)] start) (fun t => [t.reg 3, t.pc]) = some [0xFFFFFFFD#32, 0x1004#32] := by decide

/-- 95_test_vectors.md: l.div r3,r4,r5 (INT_MIN / -1). -/
theorem test_div_2 :
    refusalOf 0xE0642B09#32 (withRegs [(4, 0x80000000#32), (5, 0xFFFFFFFF#32)] start) = some .divisionOverflow := by decide

/-- 95_test_vectors.md: l.divu r3,r4,r5 (0xFFFFFFFF / 2). -/
theorem test_divu :
    seen 0xE0642B0A#32 (withRegs [(4, 0xFFFFFFFF#32), (5, 0x2#32)] start) (fun t => [t.reg 3, t.pc]) = some [0x7FFFFFFF#32, 0x1004#32] := by decide

/-- 95_test_vectors.md: l.divu r3,r4,r5 (5 / 0, §8). -/
theorem test_divu_2 :
    seen 0xE0642B0A#32 (withRegs [(4, 0x5#32)] start) (fun t => [t.reg 3, t.pc]) = some [0x0#32, 0x1004#32] := by decide

/-- 95_test_vectors.md: l.sll r3,r4,r5 (rB = 33 uses 1). -/
theorem test_sll :
    seen 0xE0642808#32 (withRegs [(4, 0x1#32), (5, 0x21#32)] start) (fun t => [t.reg 3, t.pc]) = some [0x2#32, 0x1004#32] := by decide

/-- 95_test_vectors.md: l.srl r3,r4,r5 (rB = 4). -/
theorem test_srl :
    seen 0xE0642848#32 (withRegs [(4, 0x80000000#32), (5, 0x4#32)] start) (fun t => [t.reg 3, t.pc]) = some [0x8000000#32, 0x1004#32] := by decide

/-- 95_test_vectors.md: l.sra r3,r4,r5 (rB = 4). -/
theorem test_sra :
    seen 0xE0642888#32 (withRegs [(4, 0x80000000#32), (5, 0x4#32)] start) (fun t => [t.reg 3, t.pc]) = some [0xF8000000#32, 0x1004#32] := by decide

/-- 95_test_vectors.md: l.ror r3,r4,r5 (rB = 36 uses 4). -/
theorem test_ror :
    seen 0xE06428C8#32 (withRegs [(4, 0x12345678#32), (5, 0x24#32)] start) (fun t => [t.reg 3, t.pc]) = some [0x81234567#32, 0x1004#32] := by decide

/-- 95_test_vectors.md: l.exths r3,r4. -/
theorem test_exths :
    seen 0xE064000C#32 (withRegs [(4, 0x12348000#32)] start) (fun t => [t.reg 3, t.pc]) = some [0xFFFF8000#32, 0x1004#32] := by decide

/-- 95_test_vectors.md: l.extbs r3,r4. -/
theorem test_extbs :
    seen 0xE064004C#32 (withRegs [(4, 0x12345680#32)] start) (fun t => [t.reg 3, t.pc]) = some [0xFFFFFF80#32, 0x1004#32] := by decide

/-- 95_test_vectors.md: l.exthz r3,r4. -/
theorem test_exthz :
    seen 0xE064008C#32 (withRegs [(4, 0xFFFF8000#32)] start) (fun t => [t.reg 3, t.pc]) = some [0x8000#32, 0x1004#32] := by decide

/-- 95_test_vectors.md: l.extbz r3,r4. -/
theorem test_extbz :
    seen 0xE06400CC#32 (withRegs [(4, 0xFFFFFF80#32)] start) (fun t => [t.reg 3, t.pc]) = some [0x80#32, 0x1004#32] := by decide

/-- 95_test_vectors.md: l.cmov r3,r4,r5 (F = 1). -/
theorem test_cmov :
    seen 0xE064280E#32 (withRegs [(4, 0xAA#32), (5, 0xBB#32)] { start with sr := 0x8201#32 }) (fun t => [t.reg 3, t.pc]) = some [0xAA#32, 0x1004#32] := by decide

/-- 95_test_vectors.md: l.cmov r3,r4,r5 (F = 0). -/
theorem test_cmov_2 :
    seen 0xE064280E#32 (withRegs [(4, 0xAA#32), (5, 0xBB#32)] start) (fun t => [t.reg 3, t.pc]) = some [0xBB#32, 0x1004#32] := by decide

/-- 95_test_vectors.md: l.ff1 r3,r4 (0x00000018). -/
theorem test_ff1 :
    seen 0xE064000F#32 (withRegs [(4, 0x18#32)] start) (fun t => [t.reg 3, t.pc]) = some [0x4#32, 0x1004#32] := by decide

/-- 95_test_vectors.md: l.ff1 r3,r4 (0x80000000). -/
theorem test_ff1_2 :
    seen 0xE064000F#32 (withRegs [(4, 0x80000000#32)] start) (fun t => [t.reg 3, t.pc]) = some [0x20#32, 0x1004#32] := by decide

/-- 95_test_vectors.md: l.fl1 r3,r4 (0x00000018). -/
theorem test_fl1 :
    seen 0xE064010F#32 (withRegs [(4, 0x18#32)] start) (fun t => [t.reg 3, t.pc]) = some [0x5#32, 0x1004#32] := by decide

/-- 95_test_vectors.md: l.fl1 r3,r4 (0xFFFFFFFF). -/
theorem test_fl1_2 :
    seen 0xE064010F#32 (withRegs [(4, 0xFFFFFFFF#32)] start) (fun t => [t.reg 3, t.pc]) = some [0x20#32, 0x1004#32] := by decide

/-- 95_test_vectors.md: l.sfeq r4,r5 (0xFFFFFFFF vs 1). -/
theorem test_sfeq :
    seen 0xE4042800#32 (withRegs [(4, 0xFFFFFFFF#32), (5, 0x1#32)] start) (fun t => [t.pc, t.sr]) = some [0x1004#32, 0x8001#32] := by decide

/-- 95_test_vectors.md: l.sfeq r4,r5 (equal). -/
theorem test_sfeq_2 :
    seen 0xE4042800#32 (withRegs [(4, 0x7#32), (5, 0x7#32)] start) (fun t => [t.pc, t.sr]) = some [0x1004#32, 0x8201#32] := by decide

/-- 95_test_vectors.md: l.sfne r4,r5 (0xFFFFFFFF vs 1). -/
theorem test_sfne :
    seen 0xE4242800#32 (withRegs [(4, 0xFFFFFFFF#32), (5, 0x1#32)] start) (fun t => [t.pc, t.sr]) = some [0x1004#32, 0x8201#32] := by decide

/-- 95_test_vectors.md: l.sfgtu r4,r5 (0xFFFFFFFF vs 1). -/
theorem test_sfgtu :
    seen 0xE4442800#32 (withRegs [(4, 0xFFFFFFFF#32), (5, 0x1#32)] start) (fun t => [t.pc, t.sr]) = some [0x1004#32, 0x8201#32] := by decide

/-- 95_test_vectors.md: l.sfgtu r4,r5 (equal; F was 1). -/
theorem test_sfgtu_2 :
    seen 0xE4442800#32 (withRegs [(4, 0x7#32), (5, 0x7#32)] { start with sr := 0x8201#32 }) (fun t => [t.pc, t.sr]) = some [0x1004#32, 0x8001#32] := by decide

/-- 95_test_vectors.md: l.sfgeu r4,r5 (0xFFFFFFFF vs 1). -/
theorem test_sfgeu :
    seen 0xE4642800#32 (withRegs [(4, 0xFFFFFFFF#32), (5, 0x1#32)] start) (fun t => [t.pc, t.sr]) = some [0x1004#32, 0x8201#32] := by decide

/-- 95_test_vectors.md: l.sfltu r4,r5 (0xFFFFFFFF vs 1). -/
theorem test_sfltu :
    seen 0xE4842800#32 (withRegs [(4, 0xFFFFFFFF#32), (5, 0x1#32)] start) (fun t => [t.pc, t.sr]) = some [0x1004#32, 0x8001#32] := by decide

/-- 95_test_vectors.md: l.sfleu r4,r5 (0xFFFFFFFF vs 1). -/
theorem test_sfleu :
    seen 0xE4A42800#32 (withRegs [(4, 0xFFFFFFFF#32), (5, 0x1#32)] start) (fun t => [t.pc, t.sr]) = some [0x1004#32, 0x8001#32] := by decide

/-- 95_test_vectors.md: l.sfgts r4,r5 (0xFFFFFFFF vs 1). -/
theorem test_sfgts :
    seen 0xE5442800#32 (withRegs [(4, 0xFFFFFFFF#32), (5, 0x1#32)] start) (fun t => [t.pc, t.sr]) = some [0x1004#32, 0x8001#32] := by decide

/-- 95_test_vectors.md: l.sfges r4,r5 (0xFFFFFFFF vs 1). -/
theorem test_sfges :
    seen 0xE5642800#32 (withRegs [(4, 0xFFFFFFFF#32), (5, 0x1#32)] start) (fun t => [t.pc, t.sr]) = some [0x1004#32, 0x8001#32] := by decide

/-- 95_test_vectors.md: l.sfges r4,r5 (equal). -/
theorem test_sfges_2 :
    seen 0xE5642800#32 (withRegs [(4, 0x7#32), (5, 0x7#32)] start) (fun t => [t.pc, t.sr]) = some [0x1004#32, 0x8201#32] := by decide

/-- 95_test_vectors.md: l.sflts r4,r5 (0xFFFFFFFF vs 1). -/
theorem test_sflts :
    seen 0xE5842800#32 (withRegs [(4, 0xFFFFFFFF#32), (5, 0x1#32)] start) (fun t => [t.pc, t.sr]) = some [0x1004#32, 0x8201#32] := by decide

/-- 95_test_vectors.md: l.sfles r4,r5 (0xFFFFFFFF vs 1). -/
theorem test_sfles :
    seen 0xE5A42800#32 (withRegs [(4, 0xFFFFFFFF#32), (5, 0x1#32)] start) (fun t => [t.pc, t.sr]) = some [0x1004#32, 0x8201#32] := by decide

/-- 95_test_vectors.md: l.sfeqi r4,-1. -/
theorem test_sfeqi :
    seen 0xBC04FFFF#32 (withRegs [(4, 0xFFFFFFFF#32)] start) (fun t => [t.pc, t.sr]) = some [0x1004#32, 0x8201#32] := by decide

/-- 95_test_vectors.md: l.sfnei r4,0. -/
theorem test_sfnei : seen 0xBC240000#32 start (fun t => [t.pc, t.sr]) = some [0x1004#32, 0x8001#32] := by decide

/-- 95_test_vectors.md: l.sfgtui r4,0x8000 (imm = 0xFFFF8000 unsigned). -/
theorem test_sfgtui :
    seen 0xBC448000#32 (withRegs [(4, 0x7FFF#32)] start) (fun t => [t.pc, t.sr]) = some [0x1004#32, 0x8001#32] := by decide

/-- 95_test_vectors.md: l.sfgeui r4,1. -/
theorem test_sfgeui :
    seen 0xBC640001#32 (withRegs [(4, 0x1#32)] start) (fun t => [t.pc, t.sr]) = some [0x1004#32, 0x8201#32] := by decide

/-- 95_test_vectors.md: l.sfltui r4,0xFFFF (imm = 0xFFFFFFFF). -/
theorem test_sfltui :
    seen 0xBC84FFFF#32 (withRegs [(4, 0x5#32)] start) (fun t => [t.pc, t.sr]) = some [0x1004#32, 0x8201#32] := by decide

/-- 95_test_vectors.md: l.sfleui r4,0x8000. -/
theorem test_sfleui :
    seen 0xBCA48000#32 (withRegs [(4, 0x7FFF#32)] start) (fun t => [t.pc, t.sr]) = some [0x1004#32, 0x8201#32] := by decide

/-- 95_test_vectors.md: l.sfgtsi r4,0x8000 (imm = -32768). -/
theorem test_sfgtsi :
    seen 0xBD448000#32 (withRegs [(4, 0x7FFF#32)] start) (fun t => [t.pc, t.sr]) = some [0x1004#32, 0x8201#32] := by decide

/-- 95_test_vectors.md: l.sfgesi r4,-1. -/
theorem test_sfgesi :
    seen 0xBD64FFFF#32 (withRegs [(4, 0xFFFFFFFF#32)] start) (fun t => [t.pc, t.sr]) = some [0x1004#32, 0x8201#32] := by decide

/-- 95_test_vectors.md: l.sfltsi r4,0. -/
theorem test_sfltsi :
    seen 0xBD840000#32 (withRegs [(4, 0x80000000#32)] start) (fun t => [t.pc, t.sr]) = some [0x1004#32, 0x8201#32] := by decide

/-- 95_test_vectors.md: l.sflesi r4,0x7FFF. -/
theorem test_sflesi :
    seen 0xBDA47FFF#32 (withRegs [(4, 0x8000#32)] start) (fun t => [t.pc, t.sr]) = some [0x1004#32, 0x8001#32] := by decide

/-- 95_test_vectors.md: l.j -1 (backwards). -/
theorem test_j :
    seen 0x03FFFFFF#32 start (fun t => [t.pc, t.dnpc, flagWord t.df]) = some [0x1004#32, 0xFFC#32, 1#32] := by decide

/-- 95_test_vectors.md: l.j 4 in a delay slot. -/
theorem test_j_2 :
    refusalOf 0x00000004#32 { start with df := true, dnpc := 0x4000#32 } = some .transferInDelaySlot := by decide

/-- 95_test_vectors.md: l.jal 0x100. -/
theorem test_jal :
    seen 0x04000100#32 start (fun t => [t.reg 9, t.pc, t.dnpc, flagWord t.df]) = some [0x1008#32, 0x1004#32, 0x1400#32, 1#32] := by decide

/-- 95_test_vectors.md: l.bf 2 (F = 1, taken). -/
theorem test_bf :
    seen 0x10000002#32 { start with sr := 0x8201#32 } (fun t => [t.pc, t.dnpc, flagWord t.df]) = some [0x1004#32, 0x1008#32, 1#32] := by decide

/-- 95_test_vectors.md: l.bf 2 (not taken) in a delay slot. -/
theorem test_bf_2 :
    refusalOf 0x10000002#32 { start with df := true, dnpc := 0x4000#32 } = some .transferInDelaySlot := by decide

/-- 95_test_vectors.md: l.bnf 2 (F = 0, taken). -/
theorem test_bnf :
    seen 0x0C000002#32 start (fun t => [t.pc, t.dnpc, flagWord t.df]) = some [0x1004#32, 0x1008#32, 1#32] := by decide

/-- 95_test_vectors.md: l.bnf 2 (F = 1, not taken). -/
theorem test_bnf_2 :
    seen 0x0C000002#32 { start with sr := 0x8201#32 } (fun t => [t.pc]) = some [0x1004#32] := by decide

/-- 95_test_vectors.md: l.jr r4. -/
theorem test_jr :
    seen 0x44002000#32 (withRegs [(4, 0x2000#32)] start) (fun t => [t.pc, t.dnpc, flagWord t.df]) = some [0x1004#32, 0x2000#32, 1#32] := by decide

/-- 95_test_vectors.md: l.jr r4 (misaligned target). -/
theorem test_jr_2 :
    seen 0x44002000#32 (withRegs [(4, 0x2002#32)] start) (fun t => [t.pc, t.dnpc, flagWord t.df]) = some [0x1004#32, 0x2002#32, 1#32] := by decide

/-- 95_test_vectors.md: l.jalr r4. -/
theorem test_jalr :
    seen 0x48002000#32 (withRegs [(4, 0x2000#32)] start) (fun t => [t.reg 9, t.pc, t.dnpc, flagWord t.df]) = some [0x1008#32, 0x1004#32, 0x2000#32, 1#32] := by decide

/-- 95_test_vectors.md: l.jalr r9 (target read before link). -/
theorem test_jalr_2 :
    seen 0x48004800#32 (withRegs [(9, 0x3000#32)] start) (fun t => [t.reg 9, t.pc, t.dnpc, flagWord t.df]) = some [0x1008#32, 0x1004#32, 0x3000#32, 1#32] := by decide

/-- 95_test_vectors.md: l.nop 0. -/
theorem test_nop : seen 0x15000000#32 start (fun t => [t.pc]) = some [0x1004#32] := by decide

/-- 95_test_vectors.md: l.nop 0 in a delay slot. -/
theorem test_nop_2 :
    seen 0x15000000#32 { start with df := true, dnpc := 0x4000#32 } (fun t => [t.pc, flagWord t.df]) = some [0x4000#32, 0#32] := by decide

/-- 95_test_vectors.md: l.lwz r3,0(r4). -/
theorem test_lwz :
    seen 0x84640000#32 (withRegs [(4, 0x2000#32)] (withWord 0x2000 0x8899AABB#32 start)) (fun t => [t.reg 3, t.pc]) = some [0x8899AABB#32, 0x1004#32] := by decide

/-- 95_test_vectors.md: l.lwz r3,0(r4), r4 = 0x80000000 (unmapped). -/
theorem test_lwz_2 :
    seen 0x84640000#32 (withRegs [(4, 0x80000000#32)] start) (fun t => [t.pc, t.epcr0, t.eear0, t.esr0]) = some [0x200#32, 0x1000#32, 0x80000000#32, 0x8001#32] := by decide

/-- 95_test_vectors.md: l.lws r3,0(r4). -/
theorem test_lws :
    seen 0x88640000#32 (withRegs [(4, 0x2000#32)] (withWord 0x2000 0x8899AABB#32 start)) (fun t => [t.reg 3, t.pc]) = some [0x8899AABB#32, 0x1004#32] := by decide

/-- 95_test_vectors.md: l.lbz r3,1(r4). -/
theorem test_lbz :
    seen 0x8C640001#32 (withRegs [(4, 0x2000#32)] (withWord 0x2000 0x8899AABB#32 start)) (fun t => [t.reg 3, t.pc]) = some [0x99#32, 0x1004#32] := by decide

/-- 95_test_vectors.md: l.lbs r3,1(r4). -/
theorem test_lbs :
    seen 0x90640001#32 (withRegs [(4, 0x2000#32)] (withWord 0x2000 0x8899AABB#32 start)) (fun t => [t.reg 3, t.pc]) = some [0xFFFFFF99#32, 0x1004#32] := by decide

/-- 95_test_vectors.md: l.lbs r3,3(r4). -/
theorem test_lbs_2 :
    seen 0x90640003#32 (withRegs [(4, 0x2000#32)] (withWord 0x2000 0x8899AABB#32 start)) (fun t => [t.reg 3, t.pc]) = some [0xFFFFFFBB#32, 0x1004#32] := by decide

/-- 95_test_vectors.md: l.lhz r3,2(r4). -/
theorem test_lhz :
    seen 0x94640002#32 (withRegs [(4, 0x2000#32)] (withWord 0x2000 0x8899AABB#32 start)) (fun t => [t.reg 3, t.pc]) = some [0xAABB#32, 0x1004#32] := by decide

/-- 95_test_vectors.md: l.lhz r3,1(r4) (misaligned). -/
theorem test_lhz_2 :
    seen 0x94640001#32 (withRegs [(4, 0x2000#32)] (withWord 0x2000 0x8899AABB#32 start)) (fun t => [t.pc, t.epcr0, t.eear0, t.esr0]) = some [0x600#32, 0x1000#32, 0x2001#32, 0x8001#32] := by decide

/-- 95_test_vectors.md: l.lhs r3,2(r4). -/
theorem test_lhs :
    seen 0x98640002#32 (withRegs [(4, 0x2000#32)] (withWord 0x2000 0x8899AABB#32 start)) (fun t => [t.reg 3, t.pc]) = some [0xFFFFAABB#32, 0x1004#32] := by decide

/-- 95_test_vectors.md: l.lhs r3,0(r4) (positive halfword). -/
theorem test_lhs_2 :
    seen 0x98640000#32 (withRegs [(4, 0x2000#32)] (withWord 0x2000 0x7FFF0000#32 start)) (fun t => [t.reg 3, t.pc]) = some [0x7FFF#32, 0x1004#32] := by decide

/-- 95_test_vectors.md: l.sw 0(r4),r3. -/
theorem test_sw :
    seen 0xD4041800#32 (withRegs [(3, 0x11223344#32), (4, 0x2000#32)] (withWord 0x2000 0x8899AABB#32 start)) (fun t => [t.pc, (t.mem.read 0x2000).zeroExtend 32, (t.mem.read 0x2001).zeroExtend 32, (t.mem.read 0x2002).zeroExtend 32, (t.mem.read 0x2003).zeroExtend 32]) = some [0x1004#32, 0x11#32, 0x22#32, 0x33#32, 0x44#32] := by decide

/-- 95_test_vectors.md: l.sw 4(r4),r3 (misaligned base 0x2002). -/
theorem test_sw_2 :
    seen 0xD4041804#32 (withRegs [(3, 0x1#32), (4, 0x2002#32)] (withWord 0x2000 0x8899AABB#32 start)) (fun t => [t.pc, t.epcr0, t.eear0, t.esr0]) = some [0x600#32, 0x1000#32, 0x2006#32, 0x8001#32] := by decide

/-- 95_test_vectors.md: l.sh 2(r4),r3. -/
theorem test_sh :
    seen 0xDC041802#32 (withRegs [(3, 0x11223344#32), (4, 0x2000#32)] (withWord 0x2000 0x8899AABB#32 start)) (fun t => [t.pc, (t.mem.read 0x2002).zeroExtend 32, (t.mem.read 0x2003).zeroExtend 32]) = some [0x1004#32, 0x33#32, 0x44#32] := by decide

/-- 95_test_vectors.md: l.sh 1(r4),r3 (misaligned). -/
theorem test_sh_2 :
    seen 0xDC041801#32 (withRegs [(3, 0x1#32), (4, 0x2000#32)] (withWord 0x2000 0x8899AABB#32 start)) (fun t => [t.pc, t.epcr0, t.eear0, t.esr0]) = some [0x600#32, 0x1000#32, 0x2001#32, 0x8001#32] := by decide

/-- 95_test_vectors.md: l.sb 1(r4),r3. -/
theorem test_sb :
    seen 0xD8041801#32 (withRegs [(3, 0x11223344#32), (4, 0x2000#32)] (withWord 0x2000 0x8899AABB#32 start)) (fun t => [t.pc, (t.mem.read 0x2001).zeroExtend 32]) = some [0x1004#32, 0x44#32] := by decide

/-- 95_test_vectors.md: l.sb 0(r4),r3, r4 = 0x80000000 (unmapped). -/
theorem test_sb_2 :
    seen 0xD8041800#32 (withRegs [(3, 0x5#32), (4, 0x80000000#32)] start) (fun t => [t.pc, t.epcr0, t.eear0, t.esr0]) = some [0x200#32, 0x1000#32, 0x80000000#32, 0x8001#32] := by decide

/-- 95_test_vectors.md: l.mfspr r3,r0,0x0001 (UPR, suggested CFG_UPR). -/
theorem test_mfspr :
    seen 0xB4600001#32 start (fun t => [t.reg 3, t.pc]) = some [0x619#32, 0x1004#32] := by decide

/-- 95_test_vectors.md: l.mfspr r3,r0,0x0006 (unnamed group-0 index). -/
theorem test_mfspr_2 :
    seen 0xB4600006#32 (withRegs [(3, 0x55#32)] start) (fun t => [t.reg 3, t.pc]) = some [0x0#32, 0x1004#32] := by decide

/-- 95_test_vectors.md: l.mtspr r0,r4,0x11 (SR <- 0: FO forced, user mode). -/
theorem test_mtspr : seen 0xC0002011#32 start (fun t => [t.pc, t.sr]) = some [0x1004#32, 0x8000#32] := by decide

/-- 95_test_vectors.md: l.mtspr r0,r4,0x11 (SR <- 0xFFFFFFFF). -/
theorem test_mtspr_2 :
    seen 0xC0002011#32 (withRegs [(4, 0xFFFFFFFF#32)] start) (fun t => [t.pc, t.sr]) = some [0x1004#32, 0xFFFFFFFF#32] := by decide

/-- 95_test_vectors.md: l.sys 1. -/
theorem test_sys :
    seen 0x20000001#32 start (fun t => [t.pc, t.epcr0, t.esr0]) = some [0xC00#32, 0x1004#32, 0x8001#32] := by decide

/-- 95_test_vectors.md: l.sys 1 in a delay slot. -/
theorem test_sys_2 :
    refusalOf 0x20000001#32 { start with df := true, dnpc := 0x4000#32 } = some .sysInDelaySlot := by decide

/-- 95_test_vectors.md: l.trap 0. -/
theorem test_trap :
    seen 0x21000000#32 start (fun t => [t.pc, t.epcr0, t.esr0]) = some [0xE00#32, 0x1000#32, 0x8001#32] := by decide

/-- 95_test_vectors.md: l.trap 5 in a delay slot. -/
theorem test_trap_2 :
    seen 0x21000005#32 { start with df := true, dnpc := 0x4000#32 } (fun t => [t.pc, t.epcr0, t.esr0, flagWord t.df]) = some [0xE00#32, 0xFFC#32, 0xA001#32, 0#32] := by decide

/-- 95_test_vectors.md: l.rfe in a delay slot. -/
theorem test_rfe :
    refusalOf 0x24000000#32 { start with df := true, dnpc := 0x4000#32 } = some .rfeInDelaySlot := by decide

/-- 95_test_vectors.md: l.rfe in user mode. -/
theorem test_rfe_2 : refusalOf 0x24000000#32 { start with sr := 0x8000#32 } = some .userRfe := by decide

/-- 95_test_vectors.md: l.msync. -/
theorem test_msync : seen 0x22000000#32 start (fun t => [t.pc]) = some [0x1004#32] := by decide

/-- 95_test_vectors.md: l.psync. -/
theorem test_psync : seen 0x22800000#32 start (fun t => [t.pc]) = some [0x1004#32] := by decide

/-- 95_test_vectors.md: l.csync. -/
theorem test_csync : seen 0x23000000#32 start (fun t => [t.pc]) = some [0x1004#32] := by decide

/-- 95_test_vectors.md: l.mtspr of DTLBTR[5], ITLBMR[3], DMMUCR. -/
theorem test_mtspr_mmu :
    seen 0xC0202285#32 (withRegs [(4, 0xABCDE3C0#32)] start) (fun t => [t.dmmu.tr[5], t.pc]) =
        some [0xABCDE3C0#32, 0x1004#32] ∧
      seen 0xC0402203#32 (withRegs [(4, 0x6001#32)] start) (fun t => [t.immu.mr[3]]) = some [0x6001#32] ∧
      seen 0xC0202000#32 (withRegs [(4, 0x7#32)] start) (fun t => [t.dmmu.cr]) = some [0x7#32] := by decide

/-- 95_test_vectors.md: l.rfe with EPCR0 = 0x3000, ESR0 = 0x8204, and with ESR0 = 0. -/
theorem test_rfe_restores :
    seen 0x24000000#32 { start with epcr0 := 0x3000#32, esr0 := 0x8204#32 } (fun t => [t.pc, t.sr]) =
        some [0x3000#32, 0x8204#32] ∧
      seen 0x24000000#32 { start with epcr0 := 0x3000#32 } (fun t => [t.pc, t.sr]) = some [0x3000#32, 0x8000#32] := by
  decide

/-- 95_test_vectors.md: the read of SR returns 0x8001 in the bits that have a function. -/
theorem test_mfspr_sr :
    seen 0xB4600011#32 start (fun t => [t.pc, BitVec.ofNat 32 t.draws]) = some [0x1004#32, 1#32] := by decide

/-- 95_test_vectors.md: DME = 1, va 0x4000, set 2 maps to 0x2000 with SRE; set 3 invalid; tag mismatch; no SWE. -/
theorem test_translated_load :
    seen 0x84640000#32 (withDtlb 2 0x4001#32 0x2100#32
      (withRegs [(4, 0x4000#32)] { (withWord 0x2000 0x8899AABB#32 start) with sr := 0x8021#32 }))
      (fun t => [t.reg 3, t.pc]) = some [0x8899AABB#32, 0x1004#32] := by decide

theorem test_translated_load_misses :
    seen 0x84640000#32 (withDtlb 2 0x4001#32 0x2100#32 (withRegs [(4, 0x84000#32)] { start with sr := 0x8021#32 }))
      (fun t => [t.pc, t.epcr0, t.eear0, t.esr0, t.sr]) =
      some [0x900#32, 0x1000#32, 0x84000#32, 0x8021#32, 0x8001#32] := by decide

theorem test_translated_store_denied :
    seen 0xD4041800#32 (withDtlb 2 0x4001#32 0x2100#32
      (withRegs [(3, 1#32), (4, 0x4000#32)] { start with sr := 0x8021#32 }))
      (fun t => [t.pc, t.epcr0, t.eear0, t.esr0, t.sr]) =
      some [0x300#32, 0x1000#32, 0x4000#32, 0x8021#32, 0x8001#32] := by decide

/-- 95_test_vectors.md: l.lwz of an unmapped address, and a misaligned load in a delay slot. -/
theorem test_bus_error :
    seen 0x84640000#32 (withRegs [(4, 0x80000000#32)] start) (fun t => [t.pc, t.epcr0, t.eear0, t.esr0]) =
      some [0x200#32, 0x1000#32, 0x80000000#32, 0x8001#32] := by decide

theorem test_alignment_in_delay_slot :
    seen 0x84640000#32 (withRegs [(4, 0x2001#32)] { start with df := true, dnpc := 0x4000#32 })
      (fun t => [t.pc, t.epcr0, t.eear0, t.esr0, flagWord t.df]) =
      some [0x600#32, 0xFFC#32, 0x2001#32, 0xA001#32, 0#32] := by decide

/-- 95_test_vectors.md: the fetches at 0x1002 and at 0x80000000. -/
theorem test_fetch_faults :
    seenStep { start with pc := 0x1002#32 } (fun t => [t.pc, t.epcr0, t.eear0, t.esr0]) =
        some [0x600#32, 0x1002#32, 0x1002#32, 0x8001#32] ∧
      seenStep { start with pc := 0x80000000#32 } (fun t => [t.pc, t.epcr0, t.eear0, t.esr0]) =
        some [0x200#32, 0x80000000#32, 0x80000000#32, 0x8001#32] := by decide

/-- 95_test_vectors.md: fetches with IME = 1, a miss, and user mode with SXE only. -/
theorem test_fetch_translated :
    seenStep { start with sr := 0x8041#32 } (fun t => [t.pc, t.epcr0, t.eear0, t.esr0, t.sr]) =
        some [0xA00#32, 0x1000#32, 0x1000#32, 0x8041#32, 0x8001#32] ∧
      seenStep (withItlb 0 1#32 0x40#32 { start with sr := 0x8040#32 }) (fun t => [t.pc, t.eear0, t.esr0]) =
        some [0x400#32, 0x1000#32, 0x8040#32] ∧
      seenStep (withItlb 0 1#32 0x4080#32 (withWord 0x5000 0x15000000#32 { start with sr := 0x8040#32 }))
        (fun t => [t.pc]) = some [0x1004#32] := by decide

/-- 95_test_vectors.md: an unassigned word, also in a delay slot; the refused words. -/
theorem test_illegal :
    seen 0x1C000000#32 start (fun t => [t.pc, t.epcr0, t.esr0]) = some [0x700#32, 0x1000#32, 0x8001#32] ∧
      seen 0x1C000000#32 { start with df := true, dnpc := 0x4000#32 } (fun t => [t.pc, t.epcr0, t.esr0]) =
        some [0x700#32, 0xFFC#32, 0xA001#32] ∧
      refusalOf 0xE0642B07#32 start = some (.presenceUnknown .muld) ∧
      refusalOf 0x18010000#32 start = some (.presenceUnknown .macrc) := by decide

/-- 95_test_vectors.md: the halt word 0x15000001 fetched. -/
theorem test_halt_word :
    seen 0x15000001#32 { start with cfg := { Config.standard with haltWord := some 0x15000001#32 } }
      (fun t => [t.pc, t.ttcr, flagWord t.halted]) = some [0x1000#32, 1#32, 1#32] := by decide

/-- 95_test_vectors.md, tick timer: M = 01 with IE and TEE, and TEE = 0. -/
theorem test_tick_dispatch :
    seen 0x15000000#32 { start with ttmr := 0x60000005#32, ttcr := 4#32, sr := 0x8003#32 }
      (fun t => [t.pc, t.ttcr, t.ttmr, t.epcr0, t.esr0, t.sr]) =
      some [0x500#32, 5#32, 0x70000005#32, 0x1000#32, 0x8003#32, 0x8001#32] ∧
    seen 0x15000000#32 { start with ttmr := 0x60000005#32, ttcr := 4#32 } (fun t => [t.pc, t.ttcr, t.ttmr, t.epcr0]) =
      some [0x1004#32, 5#32, 0x70000005#32, 0#32] := by decide

/-- 95_test_vectors.md, tick timer: M = 10 does not arm, and TP = 0 matches at TTCR[27:0] = 0. -/
theorem test_tick_modes :
    seen 0x15000000#32 { start with ttmr := 0xA0000005#32, ttcr := 4#32, sr := 0x8003#32 } (fun t => [t.pc, t.ttmr]) =
      some [0x1004#32, 0xA0000005#32] ∧
    seen 0x15000000#32 { start with ttmr := 0x60000000#32, ttcr := 0xFFFFFFF#32, sr := 0x8003#32 }
      (fun t => [t.pc, t.ttcr, t.ttmr]) = some [0x500#32, 0x10000000#32, 0x70000000#32] := by decide

/-- 95_test_vectors.md, the interrupt sample: a rising edge, the line still high, a masked line. -/
theorem test_interrupt_sample :
    seenStep { start with picmr := 4#32, sr := 0x8005#32, calls := [.run 10 true] }
        (fun t => [t.pc, t.epcr0, t.esr0, t.sr, t.picsr, t.ttcr]) =
      some [0x800#32, 0x1000#32, 0x8005#32, 0x8001#32, 4#32, 0#32] ∧
    seenStep { start with picmr := 4#32, picsr := 4#32, sr := 0x8005#32, calls := [.run 10 true] }
        (fun t => [t.pc, t.picsr]) = some [0x1000#32, 4#32] ∧
    seenStep { start with sr := 0x8005#32, calls := [.run 10 true] } (fun t => [t.pc, t.picsr]) =
      some [0x1000#32, 4#32] := by decide

/-- An image that overflows RAM, or whose length is no multiple of 4, is a fault (70_reset_and_hazards.md R322). -/
theorem test_image_faults :
    loadImage 0xFFFFE [1#8, 2#8, 3#8, 4#8] State.reset = .fault .imageOverflowsRam ∧
      loadImage 0 [1#8] State.reset = .fault .imageLengthNotWords := ⟨rfl, rfl⟩

/-- The memory after reset is in its canonical form. -/
theorem test_reset_memory : State.reset.mem.wf = true := by decide

/-! ### Witnesses: for every obligation with hypotheses, states and operands that meet them, clause by clause -/

/-- `start` with an instruction word at pc. -/
def holding (w : Word) (s : State) : State := s.withFetchWord 32 w.toNat

theorem noTick {s : State} (h : tickFires s = false) : ¬(TicksNext s ∧ s.tickEnabled = true) := fun hx => by
  rw [(tickFires_iff s).2 hx] at h
  cases h

theorem witness_DecodeEncodeAgree : Instr.wf (.rori 31 31 63) = true ∧ Instr.wf (.slli 0 0 0) = true := by decide

theorem witness_ReservedFieldsAreIgnored : decode 0xE0642800#32 = .ok (.add 3 4 5) := by decide

theorem witness_StepRunsTheDecodedInstruction :
    (holding 0x15000000#32 start).cycles = true ∧
      ¬(TicksNext (holding 0x15000000#32 start) ∧ (holding 0x15000000#32 start).tickEnabled = true) ∧
      FetchesFromRam 0x15000000#32 (holding 0x15000000#32 start) ∧
      (holding 0x15000000#32 start).cfg.haltWord ≠ some 0x15000000#32 ∧ decode 0x15000000#32 = .ok (.nop 0) :=
  ⟨by decide, noTick (by decide), ⟨0x1000#32, by decide, rfl, by decide, by decide⟩, by decide, by decide⟩

theorem witness_TickPhaseCountsAndMarks :
    TicksNext { start with ttmr := 0x60000005#32, ttcr := 4#32 } ∧ ¬TicksNext start :=
  ⟨⟨by decide, by decide⟩, fun h => absurd h.1 (by decide)⟩

theorem witness_TickMatchDispatches :
    TicksNext { start with ttmr := 0x60000000#32, ttcr := 0xFFFFFFFF#32, sr := 0x8003#32 } ∧
      (0x60000000#32 : Word).getLsbD 29 = true ∧ (0x8003#32 : Word).getLsbD 1 = true :=
  ⟨⟨by decide, by decide⟩, by decide, by decide⟩

theorem witness_EveryCycleCounts :
    (∃ t, cycle (holding 0x15000000#32 start) = .next t) ∧
      ∃ t, cycle (holding 0xC1402001#32 (withRegs [(4, 0x64#32)] start)) = .next t ∧ t.ttcr = 0x64#32 :=
  ⟨⟨_, rfl⟩, ⟨_, rfl, rfl⟩⟩

theorem witness_FetchExceptions_alignment :
    ¬(TicksNext { start with pc := 0x1002#32 } ∧ { start with pc := 0x1002#32 }.tickEnabled = true) ∧
      (0x1002#32 : Word).toNat % 4 ≠ 0 := ⟨noTick (by decide), by decide⟩

theorem witness_FetchExceptions_miss :
    ¬(TicksNext { start with sr := 0x8041#32 } ∧ { start with sr := 0x8041#32 }.tickEnabled = true) ∧
      (0x8041#32 : Word).getLsbD 6 = true ∧ TlbMisses { start with sr := 0x8041#32 }.immu 0x1000#32 :=
  ⟨noTick (by decide), by decide, fun mr h => .inl (by cases h; decide)⟩

theorem witness_FetchExceptions_denied :
    ¬(TicksNext (withItlb 0 1#32 0x40#32 { start with sr := 0x8040#32 }) ∧
        (withItlb 0 1#32 0x40#32 { start with sr := 0x8040#32 }).tickEnabled = true) ∧
      TlbHitsWith (withItlb 0 1#32 0x40#32 { start with sr := 0x8040#32 }).immu 0x1000#32 0x40#32 ∧
      (0x40#32 : Word).getLsbD (permissionBit .insn false false) = false :=
  ⟨noTick (by decide), ⟨⟨1#32, by decide, by decide, by decide⟩, by decide⟩, by decide⟩

theorem witness_FetchExceptions_bus :
    ¬(TicksNext { start with pc := 0x100000#32 } ∧ { start with pc := 0x100000#32 }.tickEnabled = true) ∧
      translate .insn false 0x100000#32 { start with pc := 0x100000#32 } = .ok 0x100000#32 ∧
      regionOf Config.standard 0x100000#32 .word = .unmapped := ⟨noTick (by decide), rfl, by decide⟩

theorem witness_FetchExceptions_device :
    ¬(TicksNext { start with pc := 0x90000004#32 } ∧ { start with pc := 0x90000004#32 }.tickEnabled = true) ∧
      (0x90000004#32 : Word).toNat % 4 = 0 ∧
      translate .insn false 0x90000004#32 { start with pc := 0x90000004#32 } = .ok 0x90000004#32 ∧
      regionOf Config.standard 0x90000004#32 .word = .device ∧ Config.standard.haltWord ≠ some 0x15000000#32 ∧
      decode 0x15000000#32 = .ok (.nop 0) := ⟨noTick (by decide), by decide, rfl, by decide, by decide, by decide⟩

theorem noRow : ∀ i : Instr, (0x1C000000#32 : Word) &&& i.rowMask ≠ i.rowMatch := by
  intro i
  cases i <;> simp only [Instr.rowMask, Instr.rowMatch] <;> decide

theorem witness_UnassignedWordTakesIllegal :
    ¬(TicksNext (holding 0x1C000000#32 start) ∧ (holding 0x1C000000#32 start).tickEnabled = true) ∧
      FetchesFromRam 0x1C000000#32 (holding 0x1C000000#32 start) ∧
      (holding 0x1C000000#32 start).cfg.haltWord ≠ some 0x1C000000#32 ∧
      ∀ i : Instr, (0x1C000000#32 : Word) &&& i.rowMask ≠ i.rowMatch :=
  ⟨noTick (by decide), ⟨0x1000#32, by decide, rfl, by decide, by decide⟩, by decide, noRow⟩

/-- `start` with a halt word. -/
def haltState : State :=
  holding 0x15000001#32 { start with cfg := { Config.standard with haltWord := some 0x15000001#32 } }

theorem witness_HaltWordEndsTheRun :
    ¬(TicksNext haltState ∧ haltState.tickEnabled = true) ∧ FetchesFromRam 0x15000001#32 haltState ∧
      haltState.cfg.haltWord = some 0x15000001#32 :=
  ⟨noTick (by decide), ⟨0x1000#32, by decide, rfl, by decide, by decide⟩, by decide⟩

theorem witness_SystemCallAndTrapEnter : start.df = false := by decide

/-- User mode, with the parameters after reset. -/
def userState : State := { start with sr := 0x8000#32 }

/-- User mode with USER_SYSTEM_ACCESS `allow`. -/
def userAllowed : State := { userState with cfg := { Config.standard with userSystemAccess := .allow } }

theorem witness_ReturnRestores : SystemAllowed start ∧ start.df = false ∧ SystemAllowed userAllowed ∧ userAllowed.df = false :=
  ⟨.inl (by decide), by decide, .inr (by decide), by decide⟩

theorem witness_ReturnUndoesDispatch :
    start.sr.getLsbD 15 = true ∧ { start with df := true }.sr.getLsbD 15 = true := by decide

theorem witness_FaultAddressWrittenOnlyByFaults :
    (∃ t, exec (.nop 0) start = .next t) ∧
      (∃ t, exec (.lwz 3 4 2) start = .next t ∧ t.eear0 = 2#32) ∧
      ∃ t, exec (.mtspr 0 4 0x30) (withRegs [(4, 0x1234#32)] start) = .next t ∧ t.eear0 = 0x1234#32 :=
  ⟨⟨_, rfl⟩, ⟨_, rfl, rfl⟩, ⟨_, rfl, rfl⟩⟩

theorem witness_ExceptionsArePrecise :
    (∃ t, exec (.lwz 3 4 2) start = .next t ∧ Enters (.alignment 2#32) start.pc start t) ∧
      (∃ t, exec (.add 3 4 5) start = .next t) ∧ ∃ t, exec (.mtspr 0 4 0x20) start = .next t :=
  ⟨⟨_, rfl, dispatch_enters (.alignment 2#32) start.pc start⟩, ⟨_, rfl⟩, ⟨_, rfl⟩⟩

theorem witness_FixedOneIsForced :
    (sprNumber 0 0x11 start = 0x0011 ∧ ∃ t, exec (.mtspr 0 4 0x11) start = .next t) ∧
      (∃ t, exec .rfe start = .next t) ∧ (∃ t, hostCall (.setSpr 0x0011#16 0#32) start = .next t) ∧
      (∃ t, hostCall .reset start = .next t) ∧
      start.sr.getLsbD 15 = true ∧ ∃ t, step (holding 0x24000000#32 start) = .next t :=
  ⟨⟨by decide, ⟨_, rfl⟩⟩, ⟨_, rfl⟩, ⟨_, rfl⟩, ⟨_, rfl⟩, by decide, ⟨_, rfl⟩⟩

theorem witness_StepKeepsInvariant :
    (holding 0x15000000#32 start).Inv ∧ (∃ t, step (holding 0x15000000#32 start) = .next t) ∧
      { start with calls := [.run 1 false] }.Inv ∧ ∃ t, step { start with calls := [.run 1 false] } = .next t :=
  ⟨⟨by decide, by decide, by decide, by decide, by decide⟩, ⟨_, rfl⟩,
    ⟨by decide, by decide, by decide, by decide, by decide⟩, ⟨_, rfl⟩⟩

theorem witness_SequencingKeepsPcAligned :
    start.pc.toNat % 4 = 0 ∧ start.dnpc.toNat % 4 = 0 ∧ (∃ t, exec (.jr 4) start = .next t) ∧
      (∀ b, Instr.jr 4 = .jr b ∨ Instr.jr 4 = .jalr b → (start.reg b).toNat % 4 = 0) ∧
      (∃ t, exec .rfe start = .next t) ∧ start.epcr0.toNat % 4 = 0 :=
  ⟨by decide, by decide, ⟨_, rfl⟩, by intro b _; revert b; decide, ⟨_, rfl⟩, by decide⟩

theorem witness_SequencingKeepsPcAligned_dnpc :
    ({ start with dnpc := 2#32 }.df = true → { start with dnpc := 2#32 }.dnpc.toNat % 4 = 0) ∧
      { start with df := true, dnpc := 0x2000#32 }.dnpc.toNat % 4 = 0 ∧
      (∃ t, exec (.nop 0) { start with dnpc := 2#32 } = .next t) ∧
      ∃ t, exec (.nop 0) { start with df := true, dnpc := 0x2000#32 } = .next t ∧ t.pc = 0x2000#32 :=
  ⟨(fun h => nomatch h), by decide, ⟨_, rfl⟩, ⟨_, rfl, rfl⟩⟩

/-- A jump at 0x1000, with a word after it. -/
def jumpState (slot : Word) : State := withWord 0x1004 slot (holding 0x00000004#32 start)

theorem witness_DelaySlotLaw :
    (jumpState 0x15000000#32).cycles = true ∧
      ¬(TicksNext (jumpState 0x15000000#32) ∧ (jumpState 0x15000000#32).tickEnabled = true) ∧
      FetchesFromRam 0x00000004#32 (jumpState 0x15000000#32) ∧
      (jumpState 0x15000000#32).cfg.haltWord ≠ some 0x00000004#32 ∧ decode 0x00000004#32 = .ok (.j 4) ∧
      takenTarget (.j 4) (jumpState 0x15000000#32) = some 0x1010#32 ∧
      ∃ t u, step (jumpState 0x15000000#32) = .next t ∧ t.cycles = true ∧ step t = .next u ∧ u.pc = 0x1010#32 :=
  ⟨by decide, noTick (by decide), ⟨0x1000#32, by decide, rfl, by decide, by decide⟩, by decide, by decide, by decide,
    ⟨_, _, rfl, by decide, rfl, rfl⟩⟩

theorem witness_DelaySlotLaw_exception :
    ∃ t u, step (jumpState 0x21000000#32) = .next t ∧ t.cycles = true ∧ step t = .next u ∧ u.pc = 0xE00#32 ∧
      u.epcr0 = 0x1000#32 := ⟨_, _, rfl, by decide, rfl, rfl, rfl⟩

theorem witness_DelaySlotLaw_halt :
    ∃ t u, step { jumpState 0x15000001#32 with cfg := haltState.cfg } = .next t ∧ t.cycles = true ∧ step t = .next u ∧
      u.halted = true := ⟨_, _, rfl, by decide, rfl, rfl⟩

theorem witness_DelaySlotRefusals :
    { start with df := true }.df = true ∧ isTransfer (.bf 2) = true ∧ SystemAllowed { start with df := true } ∧
      ¬SystemAllowed { userState with df := true } :=
  ⟨by decide, by decide, .inl (by decide), fun h => h.elim (fun h => absurd h (by decide)) (fun h => absurd h (by decide))⟩

theorem witness_ImmediateJumps : start.df = false := by decide

theorem witness_ConditionalBranches :
    start.df = false ∧ start.sr.getLsbD 9 = false ∧ { start with sr := 0x8201#32 }.df = false ∧
      { start with sr := 0x8201#32 }.sr.getLsbD 9 = true := by decide

theorem witness_RegisterJumps : start.df = false := by decide

theorem witness_Division :
    ((0#32 : Word).toInt = 0 ∧ (0#32 : Word).toNat = 0) ∧
      ((0x80000000#32 : Word).toInt = -2147483648 ∧ (0xFFFFFFFF#32 : Word).toInt = -1) ∧
      ((1#32 : Word).toInt ≠ 0 ∧ ¬((0x80000000#32 : Word).toInt = -2147483648 ∧ (1#32 : Word).toInt = -1)) ∧
      (0xFFFFFFFF#32 : Word).toNat ≠ 0 ∧
      (withRegs [(4, 0x80000000#32), (5, 0xFFFFFFFF#32)] start).reg 4 = 0x80000000#32 := by decide

theorem witness_ImmediateShifts : 31 < 32 ∧ 32 ≤ 32 := by decide

theorem witness_BitSearch :
    start.reg 4 = 0#32 ∧ (0x80000000#32 : Word).getLsbD 31 = true ∧ (∀ m < 31, (0x80000000#32 : Word).getLsbD m = false) ∧
      ∀ m, 31 < m → (0x80000000#32 : Word).getLsbD m = false :=
  ⟨by decide, by decide, by decide, fun _ h => BitVec.getLsbD_of_ge _ _ h⟩

theorem witness_TranslationFollowsTheTlb :
    start.sr.getLsbD 5 = false ∧ (0x8021#32 : Word).getLsbD 5 = true ∧ TlbMisses start.dmmu 0x7FFFF#32 ∧
      TlbHitsWith (withDtlb 63 0x7E001#32 0x2100#32 start).dmmu 0x7FFFF#32 0x2100#32 ∧
      (0x2100#32 : Word).getLsbD (permissionBit .data true true) = false ∧
      (0x2100#32 : Word).getLsbD (permissionBit .data false true) = true :=
  ⟨by decide, by decide, fun mr h => .inl (by cases h; decide), ⟨⟨0x7E001#32, by decide, by decide, by decide⟩, by decide⟩,
    by decide, by decide⟩

theorem witness_LoadsFromRam :
    ReachesRam false (start.effectiveAddress 4 0) .word 0#32 start ∧
      ReachesRam false ((withRegs [(4, 0xFFFFC#32)] start).effectiveAddress 4 0) .word 0xFFFFC#32
        (withRegs [(4, 0xFFFFC#32)] start) ∧
      ReachesRam false ((withRegs [(4, 0xFFFFC#32)] start).effectiveAddress 4 3) .byte 0xFFFFF#32
        (withRegs [(4, 0xFFFFC#32)] start) ∧
      ReachesRam false ((withRegs [(4, 0xFFFFC#32)] start).effectiveAddress 4 2) .half 0xFFFFE#32
        (withRegs [(4, 0xFFFFC#32)] start) :=
  ⟨⟨by decide, rfl, by decide⟩, ⟨by decide, rfl, by decide⟩, ⟨by decide, rfl, by decide⟩, ⟨by decide, rfl, by decide⟩⟩

theorem witness_StoresToRam :
    (withRegs [(4, 0xFFFFC#32)] start).mem.wf = true ∧
      ReachesRam true ((withRegs [(4, 0xFFFFC#32)] start).effectiveAddress 4 0) .word 0xFFFFC#32
        (withRegs [(4, 0xFFFFC#32)] start) ∧
      ReachesRam true ((withRegs [(4, 0xFFFFC#32)] start).effectiveAddress 4 2) .half 0xFFFFE#32
        (withRegs [(4, 0xFFFFC#32)] start) ∧
      ReachesRam true ((withRegs [(4, 0xFFFFC#32)] start).effectiveAddress 4 3) .byte 0xFFFFF#32
        (withRegs [(4, 0xFFFFC#32)] start) :=
  ⟨by decide, ⟨by decide, rfl, by decide⟩, ⟨by decide, rfl, by decide⟩, ⟨by decide, rfl, by decide⟩⟩

theorem witness_AccessExceptions_alignment :
    dataAccess (.sh 4 3 1) = some ⟨4, 1, .half, true⟩ ∧
      (1#32 : Word) = BitVec.ofInt 32 ((start.reg 4).toInt + (1#16 : BitVec 16).toInt) ∧
      (1#32 : Word).toNat % widthBytes .half ≠ 0 := by decide

theorem witness_AccessExceptions_miss :
    dataAccess (.lwz 3 4 0) = some ⟨4, 0, .word, false⟩ ∧
      (0#32 : Word) = BitVec.ofInt 32 (({ start with sr := 0x8021#32 }.reg 4).toInt + (0#16 : BitVec 16).toInt) ∧
      translate .data false 0#32 { start with sr := 0x8021#32 } = .error (.dtlbMiss 0#32) := ⟨by decide, by decide, rfl⟩

theorem witness_AccessExceptions_bus :
    (0x100000#32 : Word) = BitVec.ofInt 32 (((withRegs [(4, 0x100000#32)] start).reg 4).toInt + (0#16 : BitVec 16).toInt) ∧
      translate .data true 0x100000#32 (withRegs [(4, 0x100000#32)] start) = .ok 0x100000#32 ∧
      regionOf Config.standard 0x100000#32 .word = .unmapped ∧ regionOf Config.standard 0x90000008#32 .byte = .unmapped :=
  ⟨by decide, rfl, by decide, by decide⟩

/-- r4 at the last byte of the peripheral window. -/
def deviceState : State := withRegs [(4, 0x90000007#32)] start

theorem witness_DeviceAccesses :
    dataAccess (.lbz 3 4 0) = some ⟨4, 0, .byte, false⟩ ∧ dataAccess (.sb 4 3 0) = some ⟨4, 0, .byte, true⟩ ∧
      0x90000007#32 = deviceState.effectiveAddress 4 0 ∧ (0x90000007#32 : Word).toNat % widthBytes .byte = 0 ∧
      translate .data false 0x90000007#32 deviceState = .ok 0x90000007#32 ∧
      translate .data true 0x90000007#32 deviceState = .ok 0x90000007#32 ∧
      regionOf deviceState.cfg 0x90000007#32 .byte = .device ∧
      OffersValue (.sb 4 3 0) ⟨4, 0, .byte, true⟩ 0#32 deviceState :=
  ⟨by decide, by decide, by decide, by decide, rfl, rfl, by decide, ⟨3, .inr (.inr ⟨rfl, by decide⟩)⟩⟩

theorem witness_StoreThenLoad :
    start.mem.wf = true ∧ ReachesRam true (start.effectiveAddress 4 0) .word 0#32 start ∧
      ReachesRam false (start.effectiveAddress 4 0) .word 0#32 start ∧
      ReachesRam true (start.effectiveAddress 4 2) .half 2#32 start ∧
      ReachesRam false (start.effectiveAddress 4 2) .half 2#32 start ∧
      ReachesRam true (start.effectiveAddress 4 3) .byte 3#32 start ∧
      ReachesRam false (start.effectiveAddress 4 3) .byte 3#32 start :=
  ⟨by decide, ⟨by decide, rfl, by decide⟩, ⟨by decide, rfl, by decide⟩, ⟨by decide, rfl, by decide⟩,
    ⟨by decide, rfl, by decide⟩, ⟨by decide, rfl, by decide⟩, ⟨by decide, rfl, by decide⟩⟩

/-- User mode with data translation on, and page 0 mapped to page 1 for user writes. -/
def userStore : State := withDtlb 0 1#32 0x2080#32 (withRegs [(3, 0x55#32)] { start with sr := 0x8020#32 })

theorem witness_UserStoresStayOnWritablePages :
    userStore.sm = false ∧ userStore.dme = true ∧ userStore.mem.wf = true ∧
      ∃ t, exec (.sb 4 3 1) userStore = .next t ∧ t.mem.read 0x2001 ≠ userStore.mem.read 0x2001 :=
  ⟨by decide, by decide, by decide, ⟨_, rfl, by decide⟩⟩

theorem witness_SpecialRegisterReads :
    SystemAllowed start ∧ ((0x5001, start.ttcr) ∈ plainSprs start ∧ sprNumber 0 0x5001 start = 0x5001) ∧
      (start.dmmu.mr[63]? = some 0#32 ∧ sprNumber 0 0x0A3F start = 0x0A00 + 63) ∧
      (start.dmmu.tr[63]? = some 0#32 ∧ sprNumber 0 0x0ABF start = 0x0A80 + 63) ∧
      (start.immu.mr[0]? = some 0#32 ∧ sprNumber 0 0x1200 start = 0x1200 + 0) ∧
      (start.immu.tr[63]? = some 0#32 ∧ sprNumber 0 0x12BF start = 0x1280 + 63) :=
  ⟨.inl (by decide), by decide, by decide, by decide, by decide, by decide⟩

theorem witness_StatusReadsDrawTheOtherBits :
    SystemAllowed start ∧ sprNumber 0 0x0011 start = 0x0011 ∧ sprNumber 0 0x0040 start = 0x0040 :=
  ⟨.inl (by decide), by decide, by decide⟩

/-- PICSR_WRITE is `store`. -/
def picsrStored : State := { start with cfg := { Config.standard with picsrWrite := .store } }

theorem witness_SpecialRegisterWrites :
    SystemAllowed start ∧ sprNumber 0 0x0011 start = 0x0011 ∧ sprNumber 0 0x0020 start = 0x0020 ∧
      sprNumber 0 0x0030 start = 0x0030 ∧ sprNumber 0 0x0040 start = 0x0040 ∧ sprNumber 0 0x0800 start = 0x0800 ∧
      sprNumber 0 0x1000 start = 0x1000 ∧ sprNumber 0 0x0A3F start = 0x0A00 + (63 : Fin 64) ∧
      sprNumber 0 0x0ABF start = 0x0A80 + (63 : Fin 64) ∧ sprNumber 0 0x123F start = 0x1200 + (63 : Fin 64) ∧
      sprNumber 0 0x12BF start = 0x1280 + (63 : Fin 64) ∧ sprNumber 0 0x4800 start = 0x4800 ∧
      (SystemAllowed picsrStored ∧ sprNumber 0 0x4802 picsrStored = 0x4802 ∧ picsrStored.cfg.picsrWrite = .store) ∧
      sprNumber 0 0x5000 start = 0x5000 ∧ sprNumber 0 0x5001 start = 0x5001 :=
  ⟨.inl (by decide), by decide, by decide, by decide, by decide, by decide, by decide, by decide, by decide, by decide,
    by decide, by decide, ⟨.inl (by decide), by decide, by decide⟩, by decide, by decide⟩

theorem witness_ReadOnlySpecialRegisters :
    SystemAllowed start ∧ sprNumber 0 4 start ≤ 4 ∧ sprNumber 0 0x4802 start = 0x4802 ∧ start.cfg.picsrWrite = .ignore :=
  ⟨.inl (by decide), by decide, by decide, by decide⟩

theorem notNamed {n : Nat} (h : n = 5 ∨ n = 0x0B00 ∨ n = 0xFFFF) : ¬IsNamedSpr n := by
  unfold IsNamedSpr
  obtain rfl | rfl | rfl := h <;> decide

theorem witness_UnnamedSpecialRegisters :
    SystemAllowed start ∧ ¬IsNamedSpr (sprNumber 0 5 start) ∧ ¬IsNamedSpr (sprNumber 0 0x0B00 start) ∧
      ¬IsNamedSpr (sprNumber 0 0xFFFF start) :=
  ⟨.inl (by decide), notNamed (by decide), notNamed (by decide), notNamed (by decide)⟩

theorem witness_UnarchitectedTlbSets :
    SystemAllowed start ∧ (0x0A40 ≤ sprNumber 0 0x0A40 start ∧ sprNumber 0 0x0A40 start < 0x0A40 + 64) ∧
      (0x12C0 ≤ sprNumber 0 0x12FF start ∧ sprNumber 0 0x12FF start < 0x12C0 + 64) :=
  ⟨.inl (by decide), by decide, by decide⟩

theorem witness_UserSystemAccessRefused :
    userState.sr.getLsbD 0 = false ∧ userState.cfg.userSystemAccess = .refuse := by decide

theorem witness_UserModeKeepsSystemState :
    userState.sr.getLsbD 0 = false ∧ userState.cfg.userSystemAccess = .refuse ∧
      (∃ t, exec (.sfeq 4 5) userState = .next t) ∧ ∃ t, exec (.trap 0) userState = .next t :=
  ⟨by decide, by decide, ⟨_, rfl⟩, ⟨_, rfl⟩⟩

theorem witness_SupervisorModeIsLeftOnlyBySrWrites :
    start.sr.getLsbD 0 = true ∧ (∃ t, exec .rfe start = .next t ∧ t.sr.getLsbD 0 = false) ∧
      ∃ t, exec (.mtspr 0 4 0x11) start = .next t ∧ t.sr.getLsbD 0 = false :=
  ⟨by decide, ⟨_, rfl, rfl⟩, ⟨_, rfl, rfl⟩⟩

theorem witness_SupervisorModeIsLeftOnlyBySrWrites_outer :
    (∃ t, hostCall (.setSpr 0x0011#16 2#32) start = .next t ∧ t.sr.getLsbD 0 = false) ∧
      ∃ t, cycle (holding 0x24000000#32 start) = .next t ∧ t.sr.getLsbD 0 = false :=
  ⟨⟨_, rfl, rfl⟩, ⟨_, rfl, rfl⟩⟩

theorem witness_RunCallSamplesInterrupts :
    { start with calls := [.run 0 true] }.inRun = false ∧ { start with calls := [.run 0 true] }.calls = [.run 0 true] ∧
      { start with picmr := 4#32 }.picsr.getLsbD start.cfg.uartIrqBit = false ∧
      { start with picmr := 4#32 }.picmr.getLsbD start.cfg.uartIrqBit = true ∧ (0x8005#32 : Word).getLsbD 2 = true ∧
      start.sr.getLsbD 2 = false := by decide

theorem witness_HeldLineDispatchesOnce :
    (4#32 : Word).getLsbD start.cfg.uartIrqBit = true ∧
      { start with picsr := 4#32, calls := [.run 10 true] }.inRun = false ∧
      (∀ k < 32, (4#32 : Word).getLsbD k = true → { start with picsr := 5#32 }.picmr.getLsbD k = true →
        { start with picsr := 5#32 }.picsr.getLsbD k = true) := by decide

theorem witness_ResetCallRestoresResetValues :
    { start with calls := [.reset] }.inRun = false ∧ { start with calls := [.reset] }.calls = .reset :: [] := by decide

theorem witness_RunCallSpendsItsBudget :
    (∃ t, step (holding 0x15000000#32 { start with run := .running (0 + 1) }) = .next t ∧ t.run = .returned .continue) ∧
      (∃ t, step (holding 0x15000000#32 { start with run := .running (1 + 1) }) = .next t ∧ t.run = .running 1) ∧
      ∃ t, step (holding 0x21000000#32 { start with run := .running (1 + 1) }) = .next t ∧ t.run = .returned .stop :=
  ⟨⟨_, rfl, rfl⟩, ⟨_, rfl, rfl⟩, ⟨_, rfl, rfl⟩⟩

end Sys2Proof.Tests
end

/-! SUPPORT. The proofs of the statements of 10_state.md: what every step keeps, SR.FO, and the special registers whose
reads are drawn or zero and whose writes are ignored. -/

namespace Sys2Proof.Machine

/-! ### What every part of a step keeps -/

/-- What relates the states before and after every part of a step: the parameters are the same, and the parts of the
invariant about memory (20_memory.md R62) and FO (10_state.md R26) carry over, each on its own. The run status is apart:
within a cycle the budget may stand at 0 until the cycle is closed. -/
structure Preserves (s t : State) : Prop where
  cfg : t.cfg = s.cfg
  memWf : s.mem.wf = true → t.mem.wf = true
  memBelow : s.mem.below (s.cfg.maxRamAddress.toNat + 1) = true → t.mem.below (s.cfg.maxRamAddress.toNat + 1) = true
  fixedOne : s.sr.getLsbD 15 = true → t.sr.getLsbD 15 = true

namespace Preserves

theorem trans {s t u : State} (hst : Preserves s t) (htu : Preserves t u) : Preserves s u where
  cfg := htu.cfg.trans hst.cfg
  memWf h := htu.memWf (hst.memWf h)
  memBelow h := hst.cfg ▸ htu.memBelow (hst.cfg.symm ▸ hst.memBelow h)
  fixedOne h := htu.fixedOne (hst.fixedOne h)

/-- The usual case: memory is untouched. -/
theorem of_sameMem {s t : State} (hcfg : t.cfg = s.cfg) (hmem : t.mem = s.mem)
    (hfo : s.sr.getLsbD 15 = true → t.sr.getLsbD 15 = true) : Preserves s t where
  cfg := hcfg
  memWf h := hmem ▸ h
  memBelow h := hmem ▸ h
  fixedOne := hfo

/-- Bytes written within RAM keep memory canonical and within RAM. -/
theorem of_writeBytes {s t : State} {a : Nat} {bs : List Byte} (hcfg : t.cfg = s.cfg) (hsr : t.sr = s.sr)
    (hmem : t.mem = s.mem.writeBytes a bs) (hin : a + bs.length ≤ s.cfg.maxRamAddress.toNat + 1) : Preserves s t where
  cfg := hcfg
  memWf h := hmem ▸ wf_writeBytes h a bs
  memBelow h := hmem ▸ below_writeBytes hin h
  fixedOne h := hsr ▸ h

/-- The invariant after, from the invariant before and the run status. -/
theorem inv {s t : State} (h : Preserves s t) (hs : s.Inv) (hrun : t.run ≠ .running 0) : t.Inv := by
  obtain ⟨hwf, hbelow, hcfg, hfo, -⟩ := hs
  unfold State.Inv
  rw [h.cfg]
  exact ⟨h.memWf hwf, h.memBelow hbelow, hcfg, h.fixedOne hfo, hrun⟩

end Preserves

/-! ### The writes of SR -/

/-- Taking an exception leaves FO set (10_state.md R26). -/
theorem dispatch_fixedOne (c : Cause) (p : Word) (s : State) : (dispatch c p s).sr.getLsbD 15 = true := by
  simp [srFO, srSM]

/-- The return from an exception leaves FO set, whatever ESR0 holds (R26). -/
theorem returnFromException_fixedOne (s : State) : (returnFromException s).sr.getLsbD 15 = true := by
  simp [srFO]

/-- Reset leaves FO set (R26, 70_reset_and_hazards.md R320). -/
theorem hostReset_fixedOne (s : State) : (hostReset s).sr.getLsbD 15 = true := by
  simp [hostReset, State.reset]

theorem exec_mtspr_next {a b : Reg} {k : BitVec 16} {s t : State} (h : exec (.mtspr a b k) s = .next t) :
    t = (sprWrite (decodeSpr (s.sprAddress a k)) (s.reg b) s).seqNext := by
  change (if s.systemDenied then _ else _) = _ at h
  split at h
  · cases h
  · cases h; rfl

theorem exec_rfe_next {s t : State} (h : exec .rfe s = .next t) : t = returnFromException s := by
  change (if s.systemDenied then _ else if s.df then _ else _) = _ at h
  split at h
  · cases h
  · split at h
    · cases h
    · cases h; rfl

/-! ### Instructions, cycles, host calls and steps -/

theorem dispatch_preserves (c : Cause) (p : Word) (s : State) : Preserves s (dispatch c p s) :=
  .of_sameMem rfl rfl fun _ => dispatch_fixedOne c p s

theorem sprWrite_preserves (r : Spr) (v : Word) (s : State) : Preserves s (sprWrite r v s) := by
  obtain ⟨-, -, -, -, hmem, hcfg, -⟩ := sprWrite_frame r v s
  exact .of_sameMem hcfg hmem (sprWrite_fixedOne r v)

theorem effect_preserves {i : Instr} {s t : State} (h : Effect i s t) : Preserves s t := by
  cases h with
  | writes => exact .of_sameMem rfl rfl id
  | goesOn => exact .of_sameMem rfl rfl id
  | flag f => exact .of_sameMem rfl rfl fun h => (setFlag_otherBits s f (by decide)).trans h
  | stores a b k pa w _ _ _ hr =>
    refine .of_writeBytes rfl rfl rfl ?_
    rw [storedBytes_length]
    exact regionOf_ram.1 hr
  | special a b k =>
    exact (sprWrite_preserves (decodeSpr (s.sprAddress a k)) (s.reg b) s).trans (.of_sameMem rfl rfl id)
  | jumps => exact .of_sameMem rfl rfl id
  | links => exact .of_sameMem rfl rfl id
  | raises => exact .of_sameMem rfl rfl fun _ => dispatch_fixedOne _ _ _
  | calls => exact dispatch_preserves _ _ s
  | returns => exact .of_sameMem rfl rfl fun _ => returnFromException_fixedOne s

theorem raise_preserves {c : Cause} {s t : State} (h : raise c s = .next t) : Preserves s t := by
  cases h; exact dispatch_preserves c s.pc s

theorem runWord_preserves {w : Word} {s t : State} (h : runWord w s = .next t) : Preserves s t := by
  obtain ⟨_, rfl⟩ | ⟨_, _, hraise⟩ | ⟨_, i, _, hexec⟩ := runWord_cases h
  · exact .of_sameMem rfl rfl id
  · exact raise_preserves hraise
  · exact effect_preserves (exec_effect hexec)

theorem tickPhase_preserves (s : State) : Preserves s (tickPhase s) := by
  rw [tickPhase_eq]
  exact .of_sameMem rfl rfl id

theorem cycle_preserves {s t : State} (h : cycle s = .next t) : Preserves s t := by
  have hdevice (dev : List DeviceEvent) : Preserves s { tickPhase s with device := dev } :=
    (tickPhase_preserves s).trans (.of_sameMem rfl rfl id)
  obtain ⟨_, hc⟩ | ⟨_, ⟨c, dev, hc⟩ | ⟨w, dev, _, hc⟩⟩ := cycle_cases s
  · exact (tickPhase_preserves s).trans (raise_preserves (hc ▸ h))
  · exact (hdevice dev).trans (raise_preserves (hc ▸ h))
  · exact (hdevice dev).trans (runWord_preserves (hc ▸ h))

theorem loadImage_next {offset : Nat} {bytes : List Byte} {s t : State} (h : loadImage offset bytes s = .next t) :
    offset + bytes.length ≤ s.cfg.maxRamAddress.toNat + 1 ∧ t = { s with mem := s.mem.writeBytes offset bytes } := by
  unfold loadImage at h
  split at h
  · cases h
  · split at h
    · cases h
    · cases h; exact ⟨by omega, rfl⟩

theorem startRun_preserves (n : Nat) (asserted : Bool) (s : State) : Preserves s (startRun n asserted s) := by
  obtain ⟨_, hs⟩ | ⟨_, hs⟩ := startRun_cases n asserted s <;> rw [hs]
  · exact .of_sameMem rfl rfl fun _ => dispatch_fixedOne _ _ _
  · exact .of_sameMem rfl rfl id

theorem hostCall_preserves {c : HostCall} {s t : State} (h : hostCall c s = .next t) : Preserves s t := by
  cases c with
  | reset => cases h; exact .of_sameMem rfl rfl fun _ => hostReset_fixedOne s
  | run n asserted => cases h; exact startRun_preserves n asserted s
  | setReg r v => cases h; exact .of_sameMem rfl rfl id
  | setPc v => cases h; exact .of_sameMem rfl rfl id
  | setSpr a v => cases h; exact sprWrite_preserves (decodeSpr a) v s
  | loadImage offset bytes =>
    obtain ⟨hin, rfl⟩ := loadImage_next h
    exact .of_writeBytes rfl rfl rfl hin
  | keypress b => cases h; exact .of_sameMem rfl rfl id
  | drainOutput => cases h; exact .of_sameMem rfl rfl id

/-- A step keeps the parameters, memory's form and FO. -/
theorem step_preserves {s t : State} (h : step s = .next t) : Preserves s t := by
  obtain ⟨_, hstep⟩ | ⟨_, c, rest, _, _, hstep⟩ := step_cases s <;> rw [hstep] at h
  · obtain ⟨u, hu, rfl⟩ := afterCycle_next h
    have hspend : Preserves s (spendBudget s) := by rw [spendBudget_eq]; exact .of_sameMem rfl rfl id
    have hclose : Preserves u (closeRun u) := by rw [(closeRun_eq u).1]; exact .of_sameMem rfl rfl id
    exact (hspend.trans (cycle_preserves hu)).trans hclose
  · have hpop : Preserves s { s with calls := rest } := .of_sameMem rfl rfl id
    exact hpop.trans (hostCall_preserves h)

/-! ### A Run call under way has a cycle left -/

theorem startRun_run_ne_zero (n : Nat) (asserted : Bool) (s : State) : (startRun n asserted s).run ≠ .running 0 := by
  obtain ⟨_, hs⟩ | ⟨_, hs⟩ := startRun_cases n asserted s <;> rw [hs]
  · simp
  · unfold budgetStatus
    split <;> simp_all

/-- No call of the host but Run changes the run status, and Run never leaves a call without a cycle. -/
theorem hostCall_run_ne_zero {c : HostCall} {s t : State} (hs : s.run ≠ .running 0) (h : hostCall c s = .next t) :
    t.run ≠ .running 0 := by
  cases c with
  | reset => cases h; exact hs
  | run n asserted => cases h; exact startRun_run_ne_zero n asserted s
  | setReg r v => cases h; exact hs
  | setPc v => cases h; exact hs
  | setSpr a v =>
    cases h
    obtain ⟨-, -, -, -, -, -, -, -, -, hrun, -⟩ := sprWrite_frame (decodeSpr a) v s
    rwa [hrun]
  | loadImage offset bytes => obtain ⟨-, rfl⟩ := loadImage_next h; exact hs
  | keypress b => cases h; exact hs
  | drainOutput => cases h; exact hs

theorem step_run_ne_zero {s t : State} (hs : s.run ≠ .running 0) (h : step s = .next t) : t.run ≠ .running 0 := by
  obtain ⟨_, hstep⟩ | ⟨_, c, rest, _, _, hstep⟩ := step_cases s <;> rw [hstep] at h
  · obtain ⟨u, _, rfl⟩ := afterCycle_next h
    exact (closeRun_eq u).2
  · exact hostCall_run_ne_zero (s := { s with calls := rest }) hs h

/-! ### The invariant and FO -/

/-- Settles O21: every part of a step preserves memory's form, the parameters and FO, and the close of the cycle or the
host call leaves a Run call a cycle. -/
theorem stepKeepsInvariant : Obligations.StepKeepsInvariant := by
  intro s t hs h
  have hrun : s.run ≠ .running 0 := by
    obtain ⟨-, -, -, -, hrun⟩ := hs
    exact hrun
  exact ⟨(step_preserves h).inv hs (step_run_ne_zero hrun h), (step_preserves h).cfg⟩

/-- Settles O20: each write path forces bit 15, and a step preserves it. -/
theorem fixedOneIsForced : Obligations.FixedOneIsForced := by
  refine ⟨fun a b k s t hn h => ?mtspr, dispatch_fixedOne, fun s t h => ?rfe, fun v s t h => ?setSpr,
    fun s t h => ?reset, fun s t hfo h => (step_preserves h).fixedOne hfo⟩
  case mtspr =>
    rw [exec_mtspr_next h, sprAddress_eq hn]
    exact setSr_fixedOne s (s.reg b)
  case rfe => rw [exec_rfe_next h]; exact returnFromException_fixedOne s
  case setSpr => cases h; exact setSr_fixedOne s v
  case reset => cases h; exact hostReset_fixedOne s

/-! ### Reads of SR and ESR0 -/

/-- The functional bits of SR, by number (10_state.md R25, R28). -/
theorem srFunctional_getLsbD : ∀ n < 32, srFunctional.getLsbD n = decide (n ∈ [0, 1, 2, 5, 6, 9, 13, 15]) := by decide

/-- A read of a stored image of SR, bit by bit (R28). -/
theorem readSrImage_getLsbD (stored drawn : Word) {n : Nat} (hn : n < 32) :
    (readSrImage stored drawn).getLsbD n =
      if n ∈ [0, 1, 2, 5, 6, 9, 13, 15] then stored.getLsbD n else drawn.getLsbD n := by
  have hbits : (readSrImage stored drawn).getLsbD n =
      if srFunctional.getLsbD n = true then stored.getLsbD n else drawn.getLsbD n := by
    simp only [readSrImage, BitVec.getLsbD_or, BitVec.getLsbD_and, BitVec.getLsbD_not, hn]
    cases srFunctional.getLsbD n <;> simp
  rw [hbits, srFunctional_getLsbD n hn]
  simp only [decide_eq_true_eq]

/-- Settles O48: SR and ESR0 read through the same image, one value drawn. -/
theorem statusReadsDrawTheOtherBits : Obligations.StatusReadsDrawTheOtherBits := by
  intro d a k s hallowed hn
  have hread : sprRead (decodeSpr (s.sprAddress a k)) s =
      (readSrImage (if sprNumber a k s = 0x0011 then s.sr else s.esr0) s.draw, s.drawn) := by
    obtain h | h := hn <;> (rw [sprAddress_eq h, h]; rfl)
  obtain ⟨t, hnext, hwrites⟩ :=
    writeBack_next d (readSrImage (if sprNumber a k s = 0x0011 then s.sr else s.esr0) s.draw) s.drawn
  refine ⟨t, _, ?_, hwrites, fun n hn32 => readSrImage_getLsbD _ _ hn32⟩
  rw [exec_mfspr hallowed, hread, hnext]

/-! ### Ignored writes -/

/-- `l.mtspr` of a register that ignores the write only goes on. -/
theorem exec_mtspr_ignored {a b : Reg} {k : BitVec 16} {s : State} (h : SystemAllowed s)
    (hw : sprWrite (decodeSpr (s.sprAddress a k)) (s.reg b) s = s) :
    ∃ t, exec (.mtspr a b k) s = .next t ∧ OnlyGoesOn s t := by
  rw [exec_mtspr h, hw]
  exact goOn_next s

theorem sprWrite_picsr_ignored {s : State} (v : Word) (h : s.cfg.picsrWrite = .ignore) : sprWrite .picsr v s = s := by
  simp [sprWrite, h]

/-- The configuration registers ignore writes (10_state.md R44, R48). -/
theorem sprWrite_configuration {n : Nat} (h : n ≤ 4) (v : Word) (s : State) :
    sprWrite (decodeSpr (BitVec.ofNat 16 n)) v s = s := by
  interval_cases n <;> rfl

/-- Settles O50: the register decoded is one whose write leaves the state, so `l.mtspr` only goes on. -/
theorem readOnlySpecialRegisters : Obligations.ReadOnlySpecialRegisters := by
  intro a b k s hallowed hn
  refine exec_mtspr_ignored hallowed ?_
  obtain hconfig | ⟨hpicsr, hignore⟩ := hn
  · rw [sprAddress_eq rfl]
    exact sprWrite_configuration hconfig _ s
  · rw [sprAddress_eq hpicsr]
    exact sprWrite_picsr_ignored _ hignore

/-! ### Addresses outside the table -/

theorem systemSpr_unnamed {index : Nat} (h : index ∉ [0, 1, 2, 3, 4, 17, 32, 48, 64]) : systemSpr index = .unnamed := by
  unfold systemSpr
  split <;> simp_all

theorem mmuSpr_unnamed {side : Side} {index : Nat} (h0 : index ≠ 0) (htlb : ¬(0x200 ≤ index ∧ index < 0x300)) :
    mmuSpr side index = .unnamed := by
  unfold mmuSpr
  rw [if_neg h0, dif_neg (by omega), dif_neg (by omega)]

/-- An address outside the table of 10_state.md R46 and the indices of R43 names no register. -/
theorem decodeSpr_unnamed {a : BitVec 16} (h : ¬IsNamedSpr a.toNat) : decodeSpr a = .unnamed := by
  simp only [IsNamedSpr, List.mem_cons, List.not_mem_nil, or_false, not_or] at h
  rw [decodeSpr_eq]
  split
  · exact systemSpr_unnamed (by simp only [List.mem_cons, List.not_mem_nil, or_false, not_or]; omega)
  · exact mmuSpr_unnamed (by omega) (by omega)
  · exact mmuSpr_unnamed (by omega) (by omega)
  · rw [if_neg (by omega), if_neg (by omega)]
  · rw [if_neg (by omega), if_neg (by omega)]
  · rfl

/-- Settles O51: the address decodes to no register. -/
theorem unnamedSpecialRegisters : Obligations.UnnamedSpecialRegisters := by
  intro d a b k s hallowed hn
  have hdecode : decodeSpr (s.sprAddress a k) = .unnamed := decodeSpr_unnamed (by rwa [sprAddress_toNat])
  constructor
  · rw [exec_mfspr hallowed, hdecode]
    exact writeBack_next d 0#32 s
  · exact exec_mtspr_ignored hallowed (by rw [hdecode]; rfl)

/-! ### TLB sets 64 to 127 -/

/-- An SPR is the match or the translate register of a TLB set that translation never uses (10_state.md R43). -/
def Spr.IsUnusedSet (r : Spr) (side : Side) : Prop :=
  ∃ set : Fin 128, 64 ≤ set.val ∧ (r = .tlbmr side set ∨ r = .tlbtr side set)

/-- Two MMUs agree in the control word and the 64 sets that translate (R38, R39). -/
structure SameUsedSets (m n : Mmu) : Prop where
  cr : n.cr = m.cr
  sets : ∀ set < 64, n.mr[set]? = m.mr[set]? ∧ n.tr[set]? = m.tr[set]?

theorem SameUsedSets.refl (m : Mmu) : SameUsedSets m m := ⟨rfl, fun _ _ => ⟨rfl, rfl⟩⟩

theorem SameUsedSets.setMr (m : Mmu) {set : Fin 128} (h : 64 ≤ set.val) (v : Word) :
    SameUsedSets m { m with mr := m.mr.set set v } :=
  ⟨rfl, fun _ _ => ⟨Vector.getElem?_set_ne set.isLt (by omega), rfl⟩⟩

theorem SameUsedSets.setTr (m : Mmu) {set : Fin 128} (h : 64 ≤ set.val) (v : Word) :
    SameUsedSets m { m with tr := m.tr.set set v } :=
  ⟨rfl, fun _ _ => ⟨rfl, Vector.getElem?_set_ne set.isLt (by omega)⟩⟩

/-- The indices of R43 name the match and translate registers of the unused sets. -/
theorem decodeSpr_isUnusedSet {base n : Nat} (hbase : base ∈ [0x0A40, 0x0AC0, 0x1240, 0x12C0])
    (hlo : base ≤ n) (hhi : n < base + 64) : ∃ side, (decodeSpr (BitVec.ofNat 16 n)).IsUnusedSet side := by
  obtain ⟨set, rfl⟩ := Nat.exists_eq_add_of_le hlo
  have hset : set < 64 := by omega
  obtain ⟨hdmr, hdtr, himr, hitr⟩ := decodeSpr_otherSets set hset
  simp only [List.mem_cons, List.not_mem_nil, or_false] at hbase
  obtain rfl | rfl | rfl | rfl := hbase
  · exact ⟨.data, _, Nat.le_add_right 64 set, .inl hdmr⟩
  · exact ⟨.data, _, Nat.le_add_right 64 set, .inr hdtr⟩
  · exact ⟨.insn, _, Nat.le_add_right 64 set, .inl himr⟩
  · exact ⟨.insn, _, Nat.le_add_right 64 set, .inr hitr⟩

/-- A read of an unused set draws a value. -/
theorem sprRead_unusedSet {r : Spr} {side : Side} (hr : r.IsUnusedSet side) (s : State) :
    sprRead r s = (s.draw, s.drawn) := by
  obtain ⟨set, hset, rfl | rfl⟩ := hr <;> exact if_neg (by omega)

/-- A write of an unused set touches no set that translates, and nothing outside the MMUs. -/
theorem sprWrite_unusedSet {r : Spr} {side : Side} (hr : r.IsUnusedSet side) (v : Word) (s : State) :
    ∃ dm im, sprWrite r v s = { s with dmmu := dm, immu := im } ∧ SameUsedSets s.dmmu dm ∧ SameUsedSets s.immu im := by
  obtain ⟨set, hset, rfl | rfl⟩ := hr
  · cases side
    · exact ⟨_, _, rfl, .refl _, .setMr s.immu hset v⟩
    · exact ⟨_, _, rfl, .setMr s.dmmu hset v, .refl _⟩
  · cases side
    · exact ⟨_, _, rfl, .refl _, .setTr s.immu hset v⟩
    · exact ⟨_, _, rfl, .setTr s.dmmu hset v, .refl _⟩

theorem tlbSet_lt (va : Word) : (tlbSet va).val < 64 := (va.extractLsb' 13 6).isLt

/-- The entry that translation selects is one of a used set. -/
theorem SameUsedSets.getElem_tlbSet {m n : Mmu} (h : SameUsedSets m n) (va : Word) :
    n.mr[(tlbSet va).val] = m.mr[(tlbSet va).val] ∧ n.tr[(tlbSet va).val] = m.tr[(tlbSet va).val] := by
  obtain ⟨hmr, htr⟩ := h.sets _ (tlbSet_lt va)
  simpa using And.intro hmr htr

/-- Translation looks at SR and the used sets of the side's MMU, and nothing else (R43). -/
theorem translate_congr_usedSets {s t : State} {side : Side} (hsr : t.sr = s.sr)
    (hm : SameUsedSets (s.mmu side) (t.mmu side)) (isWrite : Bool) (va : Word) :
    translate side isWrite va t = translate side isWrite va s := by
  obtain ⟨hmr, htr⟩ := hm.getElem_tlbSet va
  have hsm : t.sm = s.sm := by rw [State.sm, State.sm, hsr]
  have hon : t.translates side = s.translates side := by
    cases side <;> simp only [State.translates, State.ime, State.dme, hsr]
  simp only [translate, hmr, htr, hsm, hon]

/-- Settles O52: the write gives MMUs with the same used sets, and translation reads no others. -/
theorem unarchitectedTlbSets : Obligations.UnarchitectedTlbSets := by
  rintro d a b k s hallowed ⟨base, hbase, hlo, hhi⟩
  obtain ⟨side, hunused⟩ := decodeSpr_isUnusedSet hbase hlo hhi
  rw [← sprAddress_eq rfl] at hunused
  constructor
  · rw [exec_mfspr hallowed, sprRead_unusedSet hunused]
    exact writeBack_next d s.draw s.drawn
  · obtain ⟨dm, im, hwrite, hd, hi⟩ := sprWrite_unusedSet hunused (s.reg b) s
    have hsets : ∀ set < 64, dm.mr[set]? = s.dmmu.mr[set]? ∧ dm.tr[set]? = s.dmmu.tr[set]? ∧
        im.mr[set]? = s.immu.mr[set]? ∧ im.tr[set]? = s.immu.tr[set]? := fun set hset =>
      ⟨(hd.sets set hset).1, (hd.sets set hset).2, (hi.sets set hset).1, (hi.sets set hset).2⟩
    have htranslate : ∀ side isWrite va,
        translate side isWrite va ({ s with dmmu := dm, immu := im }).seqNext = translate side isWrite va s
      | .data => translate_congr_usedSets rfl hd
      | .insn => translate_congr_usedSets rfl hi
    rw [exec_mtspr hallowed, hwrite]
    refine ⟨_, rfl, ⟨rfl, rfl, rfl⟩, fun _ => rfl, rfl, fun _ => rfl, ⟨rfl, rfl, rfl, rfl, rfl, rfl⟩, ?_⟩
    exact ⟨rfl, rfl, rfl, rfl, rfl, rfl, rfl, hd.cr, hi.cr, hsets, htranslate⟩

end Sys2Proof.Machine

/-! SUPPORT. The proofs of the statements of 20_memory.md: translation in numbers, the accesses that reach the peripheral, and
where the stores of user mode can write. -/

namespace Sys2Proof.Machine

/-! ### Translation in numbers -/

/-- The set an address selects is its page number modulo the 64 sets that translate (20_memory.md R72). -/
theorem tlbSet_val (va : Word) : (tlbSet va).val = va.toNat / 8192 % 64 := by
  simp [tlbSet, BitVec.extractLsb'_toNat, Nat.shiftRight_eq_div_pow]

theorem pageNumber_toNat (v : Word) : (pageNumber v).toNat = v.toNat / 8192 := by
  simp only [pageNumber, BitVec.extractLsb'_toNat, Nat.shiftRight_eq_div_pow]
  omega

theorem tlbHits_iff {mr va : Word} :
    tlbHits mr va = true ↔ mr.getLsbD 0 = true ∧ mr.toNat / 8192 = va.toNat / 8192 := by
  rw [tlbHits, Bool.and_eq_true, beq_iff_eq, ← BitVec.toNat_inj, pageNumber_toNat, pageNumber_toNat]

theorem permitted_eq (side : Side) (isWrite supervisor : Bool) (tr : Word) :
    permitted side isWrite supervisor tr = tr.getLsbD (permissionBit side isWrite supervisor) := by
  cases side <;> cases isWrite <;> cases supervisor <;> rfl

/-- The physical address of a hit, in numbers: the page of the translate register, the offset of the address (R75). -/
theorem physicalAddress_toNat (tr va : Word) :
    (pageNumber tr ++ va.extractLsb' 0 13 : Word).toNat = tr.toNat / 8192 * 8192 + va.toNat % 8192 := by
  have hoffset : (va.extractLsb' 0 13).toNat = va.toNat % 8192 := by simp [BitVec.extractLsb'_toNat]
  rw [BitVec.toNat_append, pageNumber_toNat, hoffset,
    ← Nat.shiftLeft_add_eq_or_of_lt (Nat.mod_lt _ (by decide)), Nat.shiftLeft_eq]

/-- The entry an address selects, as the model's own index gives it. -/
theorem getElem?_tlbSet (v : Vector Word 128) (va : Word) :
    v[va.toNat / 8192 % 64]? = some v[(tlbSet va).val] := by
  simp only [← tlbSet_val]
  exact Vector.getElem?_eq_getElem (tlbSet va).isLt

theorem tlbMisses_iff {m : Mmu} {va : Word} : TlbMisses m va ↔ tlbHits m.mr[(tlbSet va).val] va = false := by
  rw [← Bool.not_eq_true, tlbHits_iff, not_and_or, Bool.not_eq_true, TlbMisses, getElem?_tlbSet]
  simp

theorem tlbHitsWith_iff {m : Mmu} {va tr : Word} :
    TlbHitsWith m va tr ↔ tlbHits m.mr[(tlbSet va).val] va = true ∧ m.tr[(tlbSet va).val] = tr := by
  rw [tlbHits_iff, TlbHitsWith, getElem?_tlbSet, getElem?_tlbSet]
  simp

theorem translate_off {side : Side} {isWrite : Bool} {va : Word} {s : State} (hoff : s.translates side = false) :
    translate side isWrite va s = .ok va := by
  simp [translate, hoff]

theorem translate_miss {side : Side} {isWrite : Bool} {va : Word} {s : State} (hon : s.translates side = true)
    (hmiss : TlbMisses (s.mmu side) va) : translate side isWrite va s = .error (missCause side va) := by
  simp [translate, hon, tlbMisses_iff.1 hmiss]

/-- A hit: the permission bit decides between the page of the translate register and a page fault (R73 to R75). -/
theorem translate_hit {side : Side} {isWrite : Bool} {va tr : Word} {s : State} (hon : s.translates side = true)
    (hhit : TlbHitsWith (s.mmu side) va tr) :
    translate side isWrite va s =
      if tr.getLsbD (permissionBit side isWrite s.sm) then .ok (pageNumber tr ++ va.extractLsb' 0 13)
      else .error (faultCause side va) := by
  obtain ⟨hmr, rfl⟩ := tlbHitsWith_iff.1 hhit
  simp [translate, hon, hmr, permitted_eq]

/-- Settles O40: the three outcomes of translation, with the hit, the permission and the address read as numbers. -/
theorem translationFollowsTheTlb : Obligations.TranslationFollowsTheTlb := by
  intro side isWrite va s
  have hon (b : Bool) (h : s.sr.getLsbD (match side with | .insn => 6 | .data => 5) = b) : s.translates side = b := by
    cases side <;> exact h
  refine ⟨fun h => translate_off (hon _ h), fun h hmiss => ?miss, fun tr h hhit hdenied => ?denied,
    fun tr h hhit hgranted => ⟨_, ?mapped, physicalAddress_toNat tr va⟩⟩
  case miss => rw [translate_miss (hon _ h) hmiss]; cases side <;> rfl
  case denied =>
    rw [translate_hit (hon _ h) hhit, State.sm, hdenied]
    cases side <;> rfl
  case mapped =>
    rw [translate_hit (hon _ h) hhit, State.sm, hgranted]
    rfl

/-! ### Accesses that reach the peripheral -/

/-- The access at a virtual address reaches the peripheral at a physical address: aligned, translated and permitted, and
in the peripheral's window. -/
def ReachesDevice (isWrite : Bool) (va : Word) (w : Width) (pa : Word) (s : State) : Prop :=
  va.toNat % widthBytes w = 0 ∧ translate .data isWrite va s = .ok pa ∧ regionOf s.cfg pa w = .device

/-- A load the peripheral refuses raises the bus error, the access recorded (20_memory.md R68, R69). -/
theorem loadWith_device_refused {w : Width} {f : Word → Word} {d a : Reg} {i : BitVec 16} {pa : Word} {s : State}
    (h : ReachesDevice false (s.effectiveAddress a i) w pa s) (hread : Config.deviceRead s.device pa w = none) :
    loadWith w f d a i s =
      raise (.busError (s.effectiveAddress a i)) { s with device := .read pa w none :: s.device } := by
  obtain ⟨halign, hpa, hregion⟩ := h
  simp [loadWith, memRead, readVia, misaligned_false halign, hpa, physRead, hregion, hread]

/-- A load the peripheral answers writes the extended answer back, the access recorded (R68). -/
theorem loadWith_device_answered {w : Width} {f : Word → Word} {d a : Reg} {i : BitVec 16} {pa raw : Word} {s : State}
    (h : ReachesDevice false (s.effectiveAddress a i) w pa s) (hread : Config.deviceRead s.device pa w = some raw) :
    loadWith w f d a i s =
      writeBack d (f (lowBits raw w)) { s with device := .read pa w (some (lowBits raw w)) :: s.device } := by
  obtain ⟨halign, hpa, hregion⟩ := h
  simp [loadWith, memRead, readVia, misaligned_false halign, hpa, physRead, hregion, hread]

/-- A store that reaches the peripheral goes on or raises the bus error, as the peripheral accepts it or not; either way
the access is recorded (R68, R69). -/
theorem storeWith_device {w : Width} {a b : Reg} {i : BitVec 16} {pa : Word} {s : State} {accepted : Bool}
    (h : ReachesDevice true (s.effectiveAddress a i) w pa s)
    (haccepts : Config.deviceAccepts s.device pa w (lowBits (s.reg b) w) = accepted) :
    storeWith w a b i s =
      if accepted then goOn { s with device := .write pa w (lowBits (s.reg b) w) true :: s.device }
      else raise (.busError (s.effectiveAddress a i))
        { s with device := .write pa w (lowBits (s.reg b) w) false :: s.device } := by
  obtain ⟨halign, hpa, hregion⟩ := h
  cases accepted <;>
    simp [storeWith, memWrite, misaligned_false halign, hpa, physWrite, hregion, haccepts]

theorem zext8_lowByte_toNat (v : Word) : (zext8 (lowByte v)).toNat = v.toNat % 256 := lowBits_toNat v .byte

theorem zext16_lowHalf_toNat (v : Word) : (zext16 (lowHalf v)).toNat = v.toNat % 65536 := lowBits_toNat v .half

theorem sext8_lowByte_toInt (v : Word) : (sext8 (lowByte v)).toInt = Int.bmod v.toNat 256 := by
  rw [sext8, BitVec.toInt_signExtend_of_le (by decide)]
  exact BitVec.toInt_ofNat v.toNat

theorem sext16_lowHalf_toInt (v : Word) : (sext16 (lowHalf v)).toInt = Int.bmod v.toNat 65536 := by
  rw [sext16_toInt]
  exact BitVec.toInt_ofNat v.toNat

/-- Every load is `loadWith` of its access, with an extension that puts the value into its destination as
44_load_store.md R230 to R235 say. -/
theorem exec_load {i : Instr} {x : DataAccess} (h : dataAccess i = some x) (hload : x.isWrite = false) :
    ∃ d f, (∀ s, exec i s = loadWith x.width f d x.base x.offset s) ∧
      ∀ answer s t, SameRegsBut d s t → t.reg d = f answer → LoadsAnswer i x answer s t := by
  cases i with
  | lwz d => cases h; exact ⟨d, _, fun _ => rfl, fun _ _ _ hs hd => ⟨d, hs, .inl ⟨rfl, hd⟩⟩⟩
  | lws d => cases h; exact ⟨d, _, fun _ => rfl, fun _ _ _ hs hd => ⟨d, hs, .inr (.inl ⟨rfl, hd⟩)⟩⟩
  | lbz d =>
    cases h
    exact ⟨d, _, fun _ => rfl, fun v _ _ hs hd =>
      ⟨d, hs, .inr (.inr (.inl ⟨rfl, by rw [hd]; exact zext8_lowByte_toNat v⟩))⟩⟩
  | lbs d =>
    cases h
    exact ⟨d, _, fun _ => rfl, fun v _ _ hs hd =>
      ⟨d, hs, .inr (.inr (.inr (.inl ⟨rfl, by rw [hd]; exact sext8_lowByte_toInt v⟩)))⟩⟩
  | lhz d =>
    cases h
    exact ⟨d, _, fun _ => rfl, fun v _ _ hs hd =>
      ⟨d, hs, .inr (.inr (.inr (.inr (.inl ⟨rfl, by rw [hd]; exact zext16_lowHalf_toNat v⟩))))⟩⟩
  | lhs d =>
    cases h
    exact ⟨d, _, fun _ => rfl, fun v _ _ hs hd =>
      ⟨d, hs, .inr (.inr (.inr (.inr (.inr ⟨rfl, by rw [hd]; exact sext16_lowHalf_toInt v⟩))))⟩⟩
  | sw | sb | sh => cases h; cases hload
  | _ => cases h

/-- Every store is `storeWith` of its access, and offers the low bits of its source register (44_load_store.md R236 to
R238). -/
theorem exec_store {i : Instr} {x : DataAccess} {v : Word} {s : State} (h : dataAccess i = some x)
    (hv : OffersValue i x v s) :
    x.isWrite = true ∧ ∃ b, v = lowBits (s.reg b) x.width ∧ exec i s = storeWith x.width x.base b x.offset s := by
  obtain ⟨b, ⟨rfl, hval⟩ | ⟨rfl, hval⟩ | ⟨rfl, hval⟩⟩ := hv <;>
    obtain ⟨base, offset, width, isWrite⟩ := x <;> cases h
  · exact ⟨rfl, b, hval, rfl⟩
  · exact ⟨rfl, b, BitVec.eq_of_toNat_eq (hval.trans (lowBits_toNat _ .half).symm), rfl⟩
  · exact ⟨rfl, b, BitVec.eq_of_toNat_eq (hval.trans (lowBits_toNat _ .byte).symm), rfl⟩

/-- Settles O44: a load or store that reaches the peripheral completes as the peripheral answers, from the state with the
access recorded. -/
theorem deviceAccesses : Obligations.DeviceAccesses := by
  rintro i x va pa s hx rfl halign hpa hregion
  refine ⟨fun hload => ?load, fun v hv => ?store⟩
  case load =>
    obtain ⟨d, f, hexec, hloads⟩ := exec_load hx hload
    have hreach : ReachesDevice false (s.effectiveAddress x.base x.offset) x.width pa s :=
      ⟨halign, hload ▸ hpa, hregion⟩
    rw [hexec]
    cases hread : Config.deviceRead s.device pa x.width with
    | none =>
      rw [loadWith_device_refused hreach hread]
      exact raise_next _ _
    | some raw =>
      rw [loadWith_device_answered hreach hread]
      obtain ⟨t, hnext, hd, hregs, hsr, hspecials, hmem, houter, hgoes⟩ :=
        writeBack_next d (f (lowBits raw x.width))
          { s with device := .read pa x.width (some (lowBits raw x.width)) :: s.device }
      exact ⟨t, hnext, _, lowBits_toNat raw x.width, hloads _ s t hregs hd, hsr, hspecials, hmem, hgoes, houter⟩
  case store =>
    obtain ⟨hstore, b, rfl, hexec⟩ := exec_store hx hv
    have hreach : ReachesDevice true (s.effectiveAddress x.base x.offset) x.width pa s :=
      ⟨halign, hstore ▸ hpa, hregion⟩
    rw [hexec]
    cases haccepts : Config.deviceAccepts s.device pa x.width (lowBits (s.reg b) x.width) with
    | false =>
      rw [storeWith_device hreach haccepts]
      exact raise_next _ _
    | true =>
      rw [storeWith_device hreach haccepts]
      obtain ⟨t, hnext, hregs, hsr, hspecials, hmem, houter, hgoes⟩ :=
        goOn_next { s with device := .write pa x.width (lowBits (s.reg b) x.width) true :: s.device }
      exact ⟨t, hnext, hregs, hsr, hspecials, hmem, hgoes, houter⟩

/-! ### The stores of user mode -/

/-- An instruction changes a byte of memory only as a store: the byte is one of an aligned, translated access. -/
theorem exec_changes_byte {i : Instr} {s t : State} (hwf : s.mem.wf = true) (h : exec i s = .next t) {p : Nat}
    (hp : t.mem.read p ≠ s.mem.read p) :
    ∃ va pa w, va.toNat % widthBytes w = 0 ∧ translate .data true va s = .ok pa ∧
      pa.toNat ≤ p ∧ p < pa.toNat + widthBytes w := by
  cases exec_effect h with
  | stores a b k pa w _ hpa hal =>
    refine ⟨_, pa, w, hal, hpa, ?_⟩
    by_contra hout
    exact hp (read_writeValue_of_outside hwf _ (by omega))
  | special a b k =>
    obtain ⟨-, -, -, -, hmem, -⟩ := sprWrite_frame (decodeSpr (s.sprAddress a k)) (s.reg b) s
    rw [seqNext_mem, hmem] at hp
    exact absurd rfl hp
  | _ => exact absurd rfl hp

/-- An access that translation lets through was let through by an entry of the TLB that hits and permits it (20_memory.md
R72 to R74). -/
theorem translate_ok_entry {side : Side} {isWrite : Bool} {va pa : Word} {s : State} (hon : s.translates side = true)
    (h : translate side isWrite va s = .ok pa) :
    ∃ tr, TlbHitsWith (s.mmu side) va tr ∧ tr.getLsbD (permissionBit side isWrite s.sm) = true ∧
      pa.toNat = tr.toNat / 8192 * 8192 + va.toNat % 8192 := by
  by_cases hmiss : TlbMisses (s.mmu side) va
  · rw [translate_miss hon hmiss] at h
    cases h
  · have hhit : TlbHitsWith (s.mmu side) va (s.mmu side).tr[(tlbSet va).val] :=
      tlbHitsWith_iff.2 ⟨by simpa [tlbMisses_iff] using hmiss, rfl⟩
    rw [translate_hit hon hhit] at h
    split_ifs at h with hpermit
    cases h
    exact ⟨_, hhit, hpermit, physicalAddress_toNat _ va⟩

/-- An aligned access lies within one page (R65). -/
theorem page_of_access {base va p : Nat} {w : Width} (halign : va % widthBytes w = 0)
    (hlo : base * 8192 + va % 8192 ≤ p) (hhi : p < base * 8192 + va % 8192 + widthBytes w) : p / 8192 = base := by
  cases w <;> simp only [widthBytes] at halign hhi <;> omega

/-- Settles O46: the byte is one of an aligned store, its entry permits the store by the user write enable, and the
store lies within that entry's page. -/
theorem userStoresStayOnWritablePages : Obligations.UserStoresStayOnWritablePages := by
  intro i s t huser hon hwf h p hp
  obtain ⟨va, pa, w, halign, hpa, hlo, hhi⟩ := exec_changes_byte hwf h hp
  obtain ⟨tr, ⟨⟨mr, hmr, hvalid, _⟩, htr⟩, hpermit, haddr⟩ := translate_ok_entry (side := .data) hon hpa
  rw [huser] at hpermit
  rw [haddr] at hlo hhi
  exact ⟨_, mr, tr, Nat.mod_lt _ (by decide), hmr, htr, hvalid, hpermit, (page_of_access halign hlo hhi).symm⟩

end Sys2Proof.Machine

/-! SUPPORT. The proofs of the statements of 30_encoding.md: the decoder in terms of the opcode table, the round trip through
the encoder, and what the cycle does with a word that has no row. -/

namespace Sys2Proof

/-! ### Masks and the fields they cover -/

/-- A field that a mask covers is read from the masked word as from the word. -/
theorem extract_of_masked {w v m : Word} (h : w &&& m = v) {lo n : Nat}
    (hm : m.extractLsb' lo n = BitVec.allOnes n) : w.extractLsb' lo n = v.extractLsb' lo n := by
  rw [← h, BitVec.extractLsb'_and, hm, BitVec.and_allOnes]

theorem masked_eq_iff_bits {w v m : Word} :
    w &&& m = v &&& m ↔ ∀ k < 32, m.getLsbD k = true → w.getLsbD k = v.getLsbD k := by
  constructor
  · intro h k _ hk
    simpa [hk] using congrArg (·.getLsbD k) h
  · intro h
    apply BitVec.eq_of_getLsbD_eq
    intro k hk
    cases hmk : m.getLsbD k with
    | false => simp [hmk]
    | true => simp [hmk, h k hk hmk]

/-- Two words agree under a mask that is made of fields, each a low bit and a width, exactly when they agree in each of
these fields. -/
theorem masked_eq_iff {w v m : Word} (fields : List (Nat × Nat))
    (hm : ∀ k < 32, m.getLsbD k = fields.any fun f => decide (f.1 ≤ k ∧ k < f.1 + f.2)) :
    w &&& m = v &&& m ↔ ∀ f ∈ fields, w.extractLsb' f.1 f.2 = v.extractLsb' f.1 f.2 := by
  rw [masked_eq_iff_bits]
  constructor
  · intro h f hf
    apply BitVec.eq_of_getLsbD_eq
    intro j hj
    by_cases hk : f.1 + j < 32
    · have hmk : m.getLsbD (f.1 + j) = true := by
        rw [hm _ hk, List.any_eq_true]
        exact ⟨f, hf, by simpa using hj⟩
      simp [hj, h _ hk hmk]
    · simp [BitVec.getLsbD_of_ge _ _ (Nat.not_lt.1 hk)]
  · intro h k hk hmk
    rw [hm k hk, List.any_eq_true] at hmk
    obtain ⟨f, hf, hin⟩ := hmk
    obtain ⟨hlo, hhi⟩ := of_decide_eq_true hin
    have hbit := congrArg (·.getLsbD (k - f.1)) (h f hf)
    simpa [Nat.add_sub_cancel' hlo, show k - f.1 < f.2 by omega] using hbit

/-- What is changed outside two masks does not show under the first. -/
theorem xor_reserved_and (w r m n : Word) : (w ^^^ (r &&& ~~~(m ||| n))) &&& m = w &&& m := by
  rw [masked_eq_iff_bits]
  intro k _ hmk
  simp [hmk]

/-! ### An instruction with the operands a word holds -/

/-- The instruction of the same row of spec/opcode_table.json with the operands that the fields of a word hold (30_encoding.md
R101 to R112). -/
def Instr.withOperandsOf : Instr → Word → Instr
  | .movhi _ _, w => .movhi (fieldD w) (fieldImm w)
  | .addi _ _ _, w => .addi (fieldD w) (fieldA w) (fieldImm w)
  | .andi _ _ _, w => .andi (fieldD w) (fieldA w) (fieldImm w)
  | .ori _ _ _, w => .ori (fieldD w) (fieldA w) (fieldImm w)
  | .xori _ _ _, w => .xori (fieldD w) (fieldA w) (fieldImm w)
  | .muli _ _ _, w => .muli (fieldD w) (fieldA w) (fieldImm w)
  | .slli _ _ _, w => .slli (fieldD w) (fieldA w) (fieldL w)
  | .srli _ _ _, w => .srli (fieldD w) (fieldA w) (fieldL w)
  | .srai _ _ _, w => .srai (fieldD w) (fieldA w) (fieldL w)
  | .rori _ _ _, w => .rori (fieldD w) (fieldA w) (fieldL w)
  | .add _ _ _, w => .add (fieldD w) (fieldA w) (fieldB w)
  | .sub _ _ _, w => .sub (fieldD w) (fieldA w) (fieldB w)
  | .and _ _ _, w => .and (fieldD w) (fieldA w) (fieldB w)
  | .or _ _ _, w => .or (fieldD w) (fieldA w) (fieldB w)
  | .xor _ _ _, w => .xor (fieldD w) (fieldA w) (fieldB w)
  | .mul _ _ _, w => .mul (fieldD w) (fieldA w) (fieldB w)
  | .mulu _ _ _, w => .mulu (fieldD w) (fieldA w) (fieldB w)
  | .div _ _ _, w => .div (fieldD w) (fieldA w) (fieldB w)
  | .divu _ _ _, w => .divu (fieldD w) (fieldA w) (fieldB w)
  | .sll _ _ _, w => .sll (fieldD w) (fieldA w) (fieldB w)
  | .srl _ _ _, w => .srl (fieldD w) (fieldA w) (fieldB w)
  | .sra _ _ _, w => .sra (fieldD w) (fieldA w) (fieldB w)
  | .ror _ _ _, w => .ror (fieldD w) (fieldA w) (fieldB w)
  | .exths _ _, w => .exths (fieldD w) (fieldA w)
  | .extbs _ _, w => .extbs (fieldD w) (fieldA w)
  | .exthz _ _, w => .exthz (fieldD w) (fieldA w)
  | .extbz _ _, w => .extbz (fieldD w) (fieldA w)
  | .cmov _ _ _, w => .cmov (fieldD w) (fieldA w) (fieldB w)
  | .ff1 _ _, w => .ff1 (fieldD w) (fieldA w)
  | .fl1 _ _, w => .fl1 (fieldD w) (fieldA w)
  | .sfeq _ _, w => .sfeq (fieldA w) (fieldB w)
  | .sfne _ _, w => .sfne (fieldA w) (fieldB w)
  | .sfgtu _ _, w => .sfgtu (fieldA w) (fieldB w)
  | .sfgeu _ _, w => .sfgeu (fieldA w) (fieldB w)
  | .sfltu _ _, w => .sfltu (fieldA w) (fieldB w)
  | .sfleu _ _, w => .sfleu (fieldA w) (fieldB w)
  | .sfgts _ _, w => .sfgts (fieldA w) (fieldB w)
  | .sfges _ _, w => .sfges (fieldA w) (fieldB w)
  | .sflts _ _, w => .sflts (fieldA w) (fieldB w)
  | .sfles _ _, w => .sfles (fieldA w) (fieldB w)
  | .sfeqi _ _, w => .sfeqi (fieldA w) (fieldImm w)
  | .sfnei _ _, w => .sfnei (fieldA w) (fieldImm w)
  | .sfgtui _ _, w => .sfgtui (fieldA w) (fieldImm w)
  | .sfgeui _ _, w => .sfgeui (fieldA w) (fieldImm w)
  | .sfltui _ _, w => .sfltui (fieldA w) (fieldImm w)
  | .sfleui _ _, w => .sfleui (fieldA w) (fieldImm w)
  | .sfgtsi _ _, w => .sfgtsi (fieldA w) (fieldImm w)
  | .sfgesi _ _, w => .sfgesi (fieldA w) (fieldImm w)
  | .sfltsi _ _, w => .sfltsi (fieldA w) (fieldImm w)
  | .sflesi _ _, w => .sflesi (fieldA w) (fieldImm w)
  | .j _, w => .j (fieldN w)
  | .jal _, w => .jal (fieldN w)
  | .bnf _, w => .bnf (fieldN w)
  | .bf _, w => .bf (fieldN w)
  | .jr _, w => .jr (fieldB w)
  | .jalr _, w => .jalr (fieldB w)
  | .nop _, w => .nop (fieldImm w)
  | .lwz _ _ _, w => .lwz (fieldD w) (fieldA w) (fieldImm w)
  | .lws _ _ _, w => .lws (fieldD w) (fieldA w) (fieldImm w)
  | .lbz _ _ _, w => .lbz (fieldD w) (fieldA w) (fieldImm w)
  | .lbs _ _ _, w => .lbs (fieldD w) (fieldA w) (fieldImm w)
  | .lhz _ _ _, w => .lhz (fieldD w) (fieldA w) (fieldImm w)
  | .lhs _ _ _, w => .lhs (fieldD w) (fieldA w) (fieldImm w)
  | .sw _ _ _, w => .sw (fieldA w) (fieldB w) (fieldSplit w)
  | .sb _ _ _, w => .sb (fieldA w) (fieldB w) (fieldSplit w)
  | .sh _ _ _, w => .sh (fieldA w) (fieldB w) (fieldSplit w)
  | .mfspr _ _ _, w => .mfspr (fieldD w) (fieldA w) (fieldImm w)
  | .mtspr _ _ _, w => .mtspr (fieldA w) (fieldB w) (fieldSplit w)
  | .sys _, w => .sys (fieldImm w)
  | .trap _, w => .trap (fieldImm w)
  | .rfe, _ => .rfe
  | .msync, _ => .msync
  | .psync, _ => .psync
  | .csync, _ => .csync
  | .addc, _ => .addc
  | .muld, _ => .muld
  | .muldu, _ => .muldu
  | .extws, _ => .extws
  | .extwz, _ => .extwz
  | .macrc, _ => .macrc
  | .adrp, _ => .adrp
  | .lv, _ => .lv
  | .maci, _ => .maci
  | .lf, _ => .lf
  | .lwa, _ => .lwa
  | .cust1, _ => .cust1
  | .cust2, _ => .cust2
  | .cust3, _ => .cust3
  | .cust4, _ => .cust4
  | .ld, _ => .ld
  | .addic, _ => .addic
  | .mac, _ => .mac
  | .lfp, _ => .lfp
  | .swa, _ => .swa
  | .sd, _ => .sd
  | .cust5, _ => .cust5
  | .cust6, _ => .cust6
  | .cust7, _ => .cust7
  | .cust8, _ => .cust8

theorem fieldReg_eq_iff {lo : Nat} {w : Word} {r : Reg} : fieldReg lo w = r ↔ w.extractLsb' lo 5 = regBits r := by
  constructor
  · rintro rfl
    rfl
  · intro h
    rw [fieldReg, h, regBits_toFin]

theorem fieldSplit_eq_iff {w : Word} {i : BitVec 16} :
    fieldSplit w = i ↔ w.extractLsb' 21 5 = i.extractLsb' 11 5 ∧ w.extractLsb' 0 11 = i.extractLsb' 0 11 := by
  constructor
  · rintro rfl
    exact ⟨BitVec.extractLsb'_append_eq_left.symm, BitVec.extractLsb'_append_eq_right.symm⟩
  · rintro ⟨hhigh, hlow⟩
    rw [fieldSplit, hhigh, hlow, split_join]

theorem fieldL_eq_iff {w : Word} {l : Nat} : fieldL w = l ↔ l < 64 ∧ w.extractLsb' 0 6 = BitVec.ofNat 6 l := by
  constructor
  · rintro rfl
    exact ⟨(w.extractLsb' 0 6).isLt, by rw [fieldL, BitVec.ofNat_toNat, BitVec.setWidth_eq]⟩
  · rintro ⟨hl, h⟩
    rw [fieldL, h, BitVec.toNat_ofNat, Nat.mod_eq_of_lt hl]

/-! ### The operand fields of each format (R101 to R111) -/

theorem formatJ_operands {op : BitVec 6} {n : BitVec 26} {w : Word} :
    w &&& 0x03FFFFFF#32 = formatJ op n &&& 0x03FFFFFF#32 ↔ fieldN w = n := by
  rw [masked_eq_iff [(0, 26)] (by decide)]
  simp [fieldN]

theorem formatJR_operands {op : BitVec 6} {b : Reg} {w : Word} :
    w &&& 0x0000F800#32 = formatJR op b &&& 0x0000F800#32 ↔ fieldB w = b := by
  rw [masked_eq_iff [(11, 5)] (by decide)]
  simp [fieldB, fieldReg_eq_iff]

theorem formatNop_operands {k : BitVec 16} {w : Word} :
    w &&& 0x0000FFFF#32 = formatNop k &&& 0x0000FFFF#32 ↔ fieldImm w = k := by
  rw [masked_eq_iff [(0, 16)] (by decide)]
  simp [fieldImm]

theorem formatMovhi_operands {d : Reg} {k : BitVec 16} {w : Word} :
    w &&& 0x03E0FFFF#32 = formatMovhi d k &&& 0x03E0FFFF#32 ↔ fieldD w = d ∧ fieldImm w = k := by
  rw [masked_eq_iff [(21, 5), (0, 16)] (by decide)]
  simp [fieldD, fieldImm, fieldReg_eq_iff]

theorem formatSys_operands {sel k : BitVec 16} {w : Word} :
    w &&& 0x0000FFFF#32 = formatSys sel k &&& 0x0000FFFF#32 ↔ fieldImm w = k := by
  rw [masked_eq_iff [(0, 16)] (by decide)]
  simp [fieldImm]

theorem formatI_operands {op : BitVec 6} {d a : Reg} {i : BitVec 16} {w : Word} :
    w &&& 0x03FFFFFF#32 = formatI op d a i &&& 0x03FFFFFF#32 ↔ fieldD w = d ∧ fieldA w = a ∧ fieldImm w = i := by
  rw [masked_eq_iff [(21, 5), (16, 5), (0, 16)] (by decide)]
  simp [fieldD, fieldA, fieldImm, fieldReg_eq_iff]

theorem formatSh_operands {op : BitVec 2} {d a : Reg} {l : Nat} {w : Word} :
    l < 64 ∧ w &&& 0x03FF003F#32 = formatSh op d a l &&& 0x03FF003F#32 ↔ fieldD w = d ∧ fieldA w = a ∧ fieldL w = l := by
  rw [masked_eq_iff [(21, 5), (16, 5), (0, 6)] (by decide)]
  simp [fieldD, fieldA, fieldL_eq_iff, fieldReg_eq_iff, and_left_comm]

theorem formatSfi_operands {cond : BitVec 5} {a : Reg} {i : BitVec 16} {w : Word} :
    w &&& 0x001FFFFF#32 = formatSfi cond a i &&& 0x001FFFFF#32 ↔ fieldA w = a ∧ fieldImm w = i := by
  rw [masked_eq_iff [(16, 5), (0, 16)] (by decide)]
  simp [fieldA, fieldImm, fieldReg_eq_iff]

theorem formatSf_operands {cond : BitVec 5} {a b : Reg} {w : Word} :
    w &&& 0x001FF800#32 = formatSf cond a b &&& 0x001FF800#32 ↔ fieldA w = a ∧ fieldB w = b := by
  rw [masked_eq_iff [(16, 5), (11, 5)] (by decide)]
  simp [fieldA, fieldB, fieldReg_eq_iff]

theorem formatS_operands {op : BitVec 6} {a b : Reg} {i : BitVec 16} {w : Word} :
    w &&& 0x03FFFFFF#32 = formatS op a b i &&& 0x03FFFFFF#32 ↔ fieldA w = a ∧ fieldB w = b ∧ fieldSplit w = i := by
  rw [masked_eq_iff [(16, 5), (11, 5), (21, 5), (0, 11)] (by decide)]
  simp [fieldA, fieldB, fieldSplit_eq_iff, fieldReg_eq_iff]

theorem formatR_operands {op2 op3 : BitVec 2} {op1 : BitVec 4} {d a b : Reg} {w : Word} :
    w &&& 0x03FFF800#32 = formatR op2 op3 op1 d a b &&& 0x03FFF800#32 ↔ fieldD w = d ∧ fieldA w = a ∧ fieldB w = b := by
  rw [masked_eq_iff [(21, 5), (16, 5), (11, 5)] (by decide)]
  simp [fieldD, fieldA, fieldB, fieldReg_eq_iff]

theorem formatR_twoOperands {op2 op3 : BitVec 2} {op1 : BitVec 4} {d a b : Reg} {w : Word} :
    w &&& 0x03FF0000#32 = formatR op2 op3 op1 d a b &&& 0x03FF0000#32 ↔ fieldD w = d ∧ fieldA w = a := by
  rw [masked_eq_iff [(21, 5), (16, 5)] (by decide)]
  simp [fieldD, fieldA, fieldReg_eq_iff]

/-- The operands of an instruction fit their fields and a word's operand fields hold them exactly when reading the operands
from the word gives the instruction (R112). -/
theorem operands_iff {w : Word} {i : Instr} :
    (i.wf = true ∧ w &&& i.operandMask = encode i &&& i.operandMask) ↔ i.withOperandsOf w = i := by
  cases i with
  | movhi => simp [Instr.wf, Instr.operandMask, encode, Instr.withOperandsOf, formatMovhi_operands]
  | addi | andi | ori | xori | muli | lwz | lws | lbz | lbs | lhz | lhs | mfspr =>
    simp [Instr.wf, Instr.operandMask, encode, Instr.withOperandsOf, formatI_operands]
  | slli | srli | srai | rori =>
    simp [Instr.wf, Instr.operandMask, encode, Instr.withOperandsOf, formatSh_operands]
  | add | sub | and | or | xor | mul | mulu | div | divu | sll | srl | sra | ror | cmov =>
    simp [Instr.wf, Instr.operandMask, encode, Instr.withOperandsOf, formatR_operands]
  | exths | extbs | exthz | extbz | ff1 | fl1 =>
    simp [Instr.wf, Instr.operandMask, encode, Instr.withOperandsOf, formatR_twoOperands]
  | sfeq | sfne | sfgtu | sfgeu | sfltu | sfleu | sfgts | sfges | sflts | sfles =>
    simp [Instr.wf, Instr.operandMask, encode, Instr.withOperandsOf, formatSf_operands]
  | sfeqi | sfnei | sfgtui | sfgeui | sfltui | sfleui | sfgtsi | sfgesi | sfltsi | sflesi =>
    simp [Instr.wf, Instr.operandMask, encode, Instr.withOperandsOf, formatSfi_operands]
  | j | jal | bnf | bf => simp [Instr.wf, Instr.operandMask, encode, Instr.withOperandsOf, formatJ_operands]
  | jr | jalr => simp [Instr.wf, Instr.operandMask, encode, Instr.withOperandsOf, formatJR_operands]
  | nop => simp [Instr.wf, Instr.operandMask, encode, Instr.withOperandsOf, formatNop_operands]
  | sw | sb | sh | mtspr => simp [Instr.wf, Instr.operandMask, encode, Instr.withOperandsOf, formatS_operands]
  | sys | trap => simp [Instr.wf, Instr.operandMask, encode, Instr.withOperandsOf, formatSys_operands]
  | _ => simp [Instr.wf, Instr.operandMask, Instr.withOperandsOf]

/-! ### A word of a row decodes to the instruction of that row -/

/-- The primary opcode of a word that has the fixed bits of a row: every row fixes it (R100, R115). -/
theorem opcodeOf_of_row {w : Word} {i : Instr} (h : w &&& i.rowMask = i.rowMatch) : opcodeOf w = opcodeOf i.rowMatch := by
  have hcover : i.rowMask.extractLsb' 26 6 = BitVec.allOnes 6 := by
    cases i <;> simp [Instr.rowMask]
  rw [opcodeOf, extract_of_masked h hcover, opcodeOf]

/-! Where the primary opcode leaves the choice to a table of its own (R116 to R120) -/

theorem decode_nop {w : Word} (h : opcodeOf w = 0x05) : decode w = decodeNop w := by rw [decode, h]; rfl
theorem decode_movhi {w : Word} (h : opcodeOf w = 0x06) : decode w = decodeMovhi w := by rw [decode, h]; rfl
theorem decode_sys {w : Word} (h : opcodeOf w = 0x08) : decode w = decodeSys w := by rw [decode, h]; rfl
theorem decode_shift {w : Word} (h : opcodeOf w = 0x2E) : decode w = decodeShift w := by rw [decode, h]; rfl
theorem decode_setFlagImm {w : Word} (h : opcodeOf w = 0x2F) : decode w = decodeSetFlagImm w := by rw [decode, h]; rfl
theorem decode_alu {w : Word} (h : opcodeOf w = 0x38) : decode w = decodeAlu w := by rw [decode, h]; rfl
theorem decode_setFlag {w : Word} (h : opcodeOf w = 0x39) : decode w = decodeSetFlag w := by rw [decode, h]; rfl

/-- A word with the fixed bits of a row decodes to the instruction of that row with the operands of the word (R116 to R121). -/
theorem decode_of_row {w : Word} {i : Instr} (h : w &&& i.rowMask = i.rowMatch) :
    decode w = .ok (i.withOperandsOf w) := by
  have hop := opcodeOf_of_row h
  cases i with
  | nop =>
    simp only [Instr.rowMask, Instr.rowMatch] at h hop
    have h24 := extract_of_masked h (lo := 24) (n := 2) rfl
    simp [decode_nop hop, decodeNop, h24, Instr.withOperandsOf]
  | movhi | macrc =>
    simp only [Instr.rowMask, Instr.rowMatch] at h hop
    have h16 := extract_of_masked h (lo := 16) (n := 1) rfl
    simp [decode_movhi hop, decodeMovhi, h16, Instr.withOperandsOf]
  | sys | trap | msync | psync | csync =>
    simp only [Instr.rowMask, Instr.rowMatch] at h hop
    have h16 := extract_of_masked h (lo := 16) (n := 16) rfl
    simp [decode_sys hop, decodeSys, h16, Instr.withOperandsOf]
  | slli | srli | srai | rori =>
    simp only [Instr.rowMask, Instr.rowMatch] at h hop
    have h6 := extract_of_masked h (lo := 6) (n := 2) rfl
    simp [decode_shift hop, decodeShift, h6, Instr.withOperandsOf]
  | sfeq | sfne | sfgtu | sfgeu | sfltu | sfleu | sfgts | sfges | sflts | sfles =>
    simp only [Instr.rowMask, Instr.rowMatch] at h hop
    have h21 := extract_of_masked h (lo := 21) (n := 5) rfl
    simp [decode_setFlag hop, decodeSetFlag, fieldCondition, h21, Instr.withOperandsOf]
  | sfeqi | sfnei | sfgtui | sfgeui | sfltui | sfleui | sfgtsi | sfgesi | sfltsi | sflesi =>
    simp only [Instr.rowMask, Instr.rowMatch] at h hop
    have h21 := extract_of_masked h (lo := 21) (n := 5) rfl
    simp [decode_setFlagImm hop, decodeSetFlagImm, fieldCondition, h21, Instr.withOperandsOf]
  | add | sub | and | or | xor | mul | mulu | div | divu | cmov | ff1 | fl1 | addc | muld | muldu =>
    simp only [Instr.rowMask, Instr.rowMatch] at h hop
    have h8 := extract_of_masked h (lo := 8) (n := 2) rfl
    have h0 := extract_of_masked h (lo := 0) (n := 4) rfl
    simp [decode_alu hop, decodeAlu, h8, h0, Instr.withOperandsOf]
  | sll | srl | sra | ror | exths | extbs | exthz | extbz | extws | extwz =>
    simp only [Instr.rowMask, Instr.rowMatch] at h hop
    have h8 := extract_of_masked h (lo := 8) (n := 2) rfl
    have h6 := extract_of_masked h (lo := 6) (n := 2) rfl
    have h0 := extract_of_masked h (lo := 0) (n := 4) rfl
    simp [decode_alu hop, decodeAlu, h8, h6, h0, Instr.withOperandsOf]
  | _ =>
    simp only [Instr.rowMatch] at hop
    rw [decode, hop]
    rfl

/-! ### A word that decodes has the fixed bits of its instruction's row -/

/-! The fixed bits from the numbers the decoder reads -/

theorem primary_row {w : Word} {n : Nat} (hop : opcodeOf w = n) :
    w &&& 0xFC000000#32 = (BitVec.ofNat 6 n ++ 0#26 : Word) := by
  rw [primary_mask, (BitVec.toNat_eq_nat.1 hop).2]

theorem sys_row {w : Word} {n : Nat} (h : (w.extractLsb' 16 16).toNat = n) :
    w &&& 0xFFFF0000#32 = (BitVec.ofNat 16 n ++ 0#16 : Word) := by
  rw [sys_mask, (BitVec.toNat_eq_nat.1 h).2]

theorem shift_row {w : Word} {n : Nat} (hop : opcodeOf w = 0x2E) (h : (w.extractLsb' 6 2).toNat = n) :
    w &&& 0xFC0000C0#32 = (0x2E#6 ++ 0#18 ++ BitVec.ofNat 2 n ++ 0#6 : Word) := by
  rw [shift_mask, (BitVec.toNat_eq_nat.1 hop).2, (BitVec.toNat_eq_nat.1 h).2]

theorem setFlag_row {w : Word} {m n : Nat} (hop : opcodeOf w = m) (h : fieldCondition w = n) :
    w &&& 0xFFE00000#32 = (BitVec.ofNat 6 m ++ BitVec.ofNat 5 n ++ 0#21 : Word) := by
  rw [setFlag_mask, (BitVec.toNat_eq_nat.1 hop).2, (BitVec.toNat_eq_nat.1 h).2]

/-! The secondary tables (R116 to R120) -/

theorem decodeNop_row {w : Word} {i : Instr} (hop : opcodeOf w = 0x05) (h : decodeNop w = .ok i) :
    w &&& i.rowMask = i.rowMatch := by
  unfold decodeNop at h
  split at h
  next hselect =>
    cases h
    simp [Instr.rowMask, Instr.rowMatch, nop_mask, (BitVec.toNat_eq_nat.1 hop).2, hselect]
  next => cases h

theorem decodeMovhi_row {w : Word} {i : Instr} (hop : opcodeOf w = 0x06) (h : decodeMovhi w = .ok i) :
    w &&& i.rowMask = i.rowMatch := by
  unfold decodeMovhi at h
  split at h
  next hselect =>
    cases h
    simp [Instr.rowMask, Instr.rowMatch, movhi_mask, (BitVec.toNat_eq_nat.1 hop).2, hselect]
  next hselect =>
    have hzero : w.extractLsb' 16 1 = 0#1 := (BitVec.eq_zero_or_eq_one _).resolve_right hselect
    cases h
    simp [Instr.rowMask, Instr.rowMatch, movhi_mask, (BitVec.toNat_eq_nat.1 hop).2, hzero]

theorem decodeSys_row {w : Word} {i : Instr} (h : decodeSys w = .ok i) : w &&& i.rowMask = i.rowMatch := by
  unfold decodeSys at h
  split at h <;> cases h <;> exact sys_row ‹_›

theorem decodeShift_row {w : Word} {i : Instr} (hop : opcodeOf w = 0x2E) (h : decodeShift w = .ok i) :
    w &&& i.rowMask = i.rowMatch := by
  unfold decodeShift at h
  split at h <;> cases h
  case h_4 h0 h1 h2 =>
    have hlt := (w.extractLsb' 6 2).isLt
    rw [imp_false] at h0 h1 h2
    have h3 : (w.extractLsb' 6 2).toNat = 3 := by omega
    exact shift_row hop h3
  all_goals exact shift_row hop ‹_›

theorem decodeSetFlag_row {w : Word} {i : Instr} (hop : opcodeOf w = 0x39) (h : decodeSetFlag w = .ok i) :
    w &&& i.rowMask = i.rowMatch := by
  unfold decodeSetFlag at h
  split at h <;> cases h <;> exact setFlag_row hop ‹_›

theorem decodeSetFlagImm_row {w : Word} {i : Instr} (hop : opcodeOf w = 0x2F) (h : decodeSetFlagImm w = .ok i) :
    w &&& i.rowMask = i.rowMatch := by
  unfold decodeSetFlagImm at h
  split at h <;> cases h <;> exact setFlag_row hop ‹_›

theorem decodeAlu_row {w : Word} {i : Instr} (hop : opcodeOf w = 0x38) (h : decodeAlu w = .ok i) :
    w &&& i.rowMask = i.rowMatch := by
  unfold opcodeOf at hop
  unfold decodeAlu at h
  split at h <;> cases h
  all_goals
    simp only [BitVec.toNat_eq_nat] at *
    simp_all only [Instr.rowMask, Instr.rowMatch, alu_mask, aluKind_mask]
    rfl

/-- A word that decodes to an instruction has the fixed bits of the instruction's row (R115 to R121). -/
theorem row_of_decode {w : Word} {i : Instr} (h : decode w = .ok i) : w &&& i.rowMask = i.rowMatch := by
  -- seven opcodes have a table of their own; the others fix the row
  unfold decode at h
  split at h
  case h_6 hop => exact decodeNop_row hop h
  case h_7 hop => exact decodeMovhi_row hop h
  case h_8 => exact decodeSys_row h
  case h_34 hop => exact decodeShift_row hop h
  case h_35 hop => exact decodeSetFlagImm_row hop h
  case h_44 hop => exact decodeAlu_row hop h
  case h_45 hop => exact decodeSetFlag_row hop h
  all_goals cases h <;> exact primary_row ‹_›

/-! ### The encoder -/

/-- The word of an instruction has the fixed bits of the instruction's row, whatever its operands (R115). -/
theorem encode_row (i : Instr) : encode i &&& i.rowMask = i.rowMatch := by
  cases i with
  | movhi => exact formatMovhi_mask _ _
  | addi | andi | ori | xori | muli | lwz | lws | lbz | lbs | lhz | lhs | mfspr => exact formatI_mask _ _ _ _
  | slli | srli | srai | rori => exact formatSh_mask _ _ _ _
  | add | sub | and | or | xor | mul | mulu | div | divu | cmov | ff1 | fl1 => exact formatR_mask _ _ _ _ _ _
  | sll | srl | sra | ror | exths | extbs | exthz | extbz => exact formatR_kindMask _ _ _ _ _ _
  | sfeq | sfne | sfgtu | sfgeu | sfltu | sfleu | sfgts | sfges | sflts | sfles => exact formatSf_mask _ _ _
  | sfeqi | sfnei | sfgtui | sfgeui | sfltui | sfleui | sfgtsi | sfgesi | sfltsi | sflesi => exact formatSfi_mask _ _ _
  | j | jal | bnf | bf => exact formatJ_mask _ _
  | jr | jalr => exact formatJR_mask _ _
  | nop => exact formatNop_mask _
  | sw | sb | sh | mtspr => exact formatS_mask _ _ _ _
  | sys | trap | msync | psync | csync => exact formatSys_mask _ _
  | _ => rfl

/-! ### The statements about the decoder -/

/-- Settles O1: the encoder's word has the bits of the instruction's row, and its fields hold the operands. -/
theorem decodeEncodeAgree : Obligations.DecodeEncodeAgree := by
  intro i hwf
  rw [decode_of_row (encode_row i), operands_iff.1 ⟨hwf, rfl⟩]

/-- Settles O2: the row decides which instruction, the operand fields which operands. -/
theorem decoderFollowsTheTable : Obligations.DecoderFollowsTheTable := by
  intro w i
  constructor
  · intro h
    have hrow := row_of_decode h
    have hread : i.withOperandsOf w = i := Except.ok.inj ((decode_of_row hrow).symm.trans h)
    obtain ⟨hwf, hoperands⟩ := operands_iff.2 hread
    exact ⟨hwf, hrow, hoperands⟩
  · rintro ⟨hwf, hrow, hoperands⟩
    rw [decode_of_row hrow, operands_iff.1 ⟨hwf, hoperands⟩]

/-- Settles O3: a word that decodes has a row, and a word with a row decodes. -/
theorem rejectedWordsHaveNoRow : Obligations.RejectedWordsHaveNoRow := by
  intro w
  constructor
  · rintro ⟨e, he⟩ i hrow
    cases he.symm.trans (decode_of_row hrow)
  · intro hnone
    cases h : decode w with
    | error e => exact ⟨e, rfl⟩
    | ok i => exact absurd (row_of_decode h) (hnone i)

/-- Settles O4: the decoder follows the bits of the row and of the operand fields, and no others. -/
theorem reservedFieldsAreIgnored : Obligations.ReservedFieldsAreIgnored := by
  intro w reserved i h
  obtain ⟨hwf, hrow, hoperands⟩ := (decoderFollowsTheTable w i).1 h
  refine (decoderFollowsTheTable _ i).2 ⟨hwf, ?_, ?_⟩
  · rw [xor_reserved_and, hrow]
  · rw [BitVec.or_comm, xor_reserved_and, hoperands]

end Sys2Proof

namespace Sys2Proof.Machine

/-! ### Words without a row, and refused rows -/

/-- The tick phase changes nothing that a fetch from RAM depends on. -/
theorem fetchesFromRam_tickPhase {w : Word} {s : State} (h : FetchesFromRam w s) : FetchesFromRam w (tickPhase s) := by
  obtain ⟨pa, haligned, hpa, hram, hw⟩ := h
  rw [tickPhase_eq]
  exact ⟨pa, haligned, (translate_congr rfl rfl rfl ..).trans hpa, hram, hw⟩

/-- A cycle without a tick dispatch runs the word that it fetches from RAM, in the state after the tick phase
(40_fetch_and_sequencing.md R130). -/
theorem cycle_of_fetchesFromRam {w : Word} {s : State} (htick : ¬(TicksNext s ∧ s.tickEnabled = true))
    (h : FetchesFromRam w s) : cycle s = runWord w (tickPhase s) := by
  unfold cycle
  rw [if_neg (mt (tickFires_iff s).1 htick), fetch_ram (fetchesFromRam_tickPhase h)]

/-- Running a word that the decoder rejects takes the illegal-instruction exception (R134). -/
theorem runWord_of_rejected {w : Word} {s : State} {e : DecodeReject} (hhalt : s.cfg.haltWord ≠ some w)
    (h : decode w = .error e) : runWord w s = raise .illegal s := by
  unfold runWord
  rw [if_neg hhalt, h]

/-- Settles O11: such a word is rejected, so the cycle that fetches it raises the exception after its tick phase. -/
theorem unassignedWordTakesIllegal : Obligations.UnassignedWordTakesIllegal := by
  intro s w htick hfetch hhalt hnone
  obtain ⟨e, he⟩ := (rejectedWordsHaveNoRow w).2 hnone
  obtain ⟨t, hraise, henters, hdevice⟩ := raise_next .illegal (tickPhase s)
  have hcfg : (tickPhase s).cfg = s.cfg := by rw [tickPhase_eq]
  have hpc : (tickPhase s).pc = s.pc := by rw [tickPhase_eq]
  have hdev : (tickPhase s).device = s.device := by rw [tickPhase_eq]
  refine ⟨t, ?_, hpc ▸ henters, hdevice.trans hdev⟩
  rw [cycle_of_fetchesFromRam htick hfetch, runWord_of_rejected (hcfg.symm ▸ hhalt) he, hraise]

/-- Settles O56: each of these rows is executed by refusing it under its own name. -/
theorem refusedRowsAreRefused : Obligations.RefusedRowsAreRefused := by
  intro s
  repeat' apply And.intro
  all_goals rfl

end Sys2Proof.Machine

/-! SUPPORT. The proofs of the statements of 40_fetch_and_sequencing.md: the word a cycle fetches and what becomes of it, the
exceptions of a fetch, the alignment of pc, and the delay slot. -/

namespace Sys2Proof.Machine

/-! ### What the tick phase and the bookkeeping of a step leave -/

@[simp] theorem tickPhase_pc (s : State) : (tickPhase s).pc = s.pc := by rw [tickPhase_eq]
@[simp] theorem tickPhase_df (s : State) : (tickPhase s).df = s.df := by rw [tickPhase_eq]
@[simp] theorem tickPhase_dnpc (s : State) : (tickPhase s).dnpc = s.dnpc := by rw [tickPhase_eq]
@[simp] theorem tickPhase_cfg (s : State) : (tickPhase s).cfg = s.cfg := by rw [tickPhase_eq]
@[simp] theorem tickPhase_device (s : State) : (tickPhase s).device = s.device := by rw [tickPhase_eq]

@[simp] theorem spendBudget_pc (s : State) : (spendBudget s).pc = s.pc := by rw [spendBudget_eq]
@[simp] theorem spendBudget_df (s : State) : (spendBudget s).df = s.df := by rw [spendBudget_eq]
@[simp] theorem spendBudget_dnpc (s : State) : (spendBudget s).dnpc = s.dnpc := by rw [spendBudget_eq]
@[simp] theorem spendBudget_cfg (s : State) : (spendBudget s).cfg = s.cfg := by rw [spendBudget_eq]

/-- The tick phase changes nothing that translation looks at (20_memory.md R76). -/
@[simp] theorem translate_tickPhase (side : Side) (isWrite : Bool) (va : Word) (s : State) :
    translate side isWrite va (tickPhase s) = translate side isWrite va s := by
  rw [tickPhase_eq]
  exact translate_congr rfl rfl rfl ..

/-- Neither the budget nor the tick phase changes what a transfer looks at: pc, F and the registers. -/
theorem takenTarget_cycleState (i : Instr) (s : State) :
    takenTarget i (tickPhase (spendBudget s)) = takenTarget i s := by
  rw [tickPhase_eq, spendBudget_eq]
  rfl

/-! ### A step that fetches from RAM -/

theorem runWord_of_haltWord {w : Word} {s : State} (h : s.cfg.haltWord = some w) : runWord w s = .next (halt s) :=
  if_pos h

theorem runWord_of_decoded {w : Word} {s : State} {i : Instr} (hhalt : s.cfg.haltWord ≠ some w) (h : decode w = .ok i) :
    runWord w s = exec i s := by
  unfold runWord
  rw [if_neg hhalt, h]

/-- A step that is a cycle without a tick dispatch runs the word that it fetches from RAM, in the state after the tick
phase, a cycle of the budget used up (40_fetch_and_sequencing.md R130). -/
theorem step_of_fetchesFromRam {w : Word} {s : State} (hcycles : s.cycles = true)
    (htick : ¬(TicksNext s ∧ s.tickEnabled = true)) (hfetch : FetchesFromRam w s) :
    step s = afterCycle (runWord w (tickPhase (spendBudget s))) := by
  have htick' : ¬(TicksNext (spendBudget s) ∧ (spendBudget s).tickEnabled = true) := by
    rw [spendBudget_eq]
    exact htick
  have hfetch' : FetchesFromRam w (spendBudget s) := by
    rw [spendBudget_eq]
    exact hfetch
  obtain ⟨_, hstep⟩ | ⟨hcall, _⟩ := step_cases s
  · rw [hstep, cycle_of_fetchesFromRam htick' hfetch']
  · cases hcycles.symm.trans hcall

/-- Settles O6: the step runs the word of RAM, and a word that decodes is run by executing its instruction. -/
theorem stepRunsTheDecodedInstruction : Obligations.StepRunsTheDecodedInstruction := by
  intro s w i hcycles htick hfetch hhalt hdecode
  have hhalt' : (tickPhase (spendBudget s)).cfg.haltWord ≠ some w := by simpa using hhalt
  rw [step_of_fetchesFromRam hcycles htick hfetch, runWord_of_decoded hhalt' hdecode]

/-- Settles O12: the cycle runs the word in the state after the tick phase, and running the halt word only halts. -/
theorem haltWordEndsTheRun : Obligations.HaltWordEndsTheRun := by
  intro s w htick hfetch hhalt
  have hhalt' : (tickPhase s).cfg.haltWord = some w := by simpa using hhalt
  rw [cycle_of_fetchesFromRam htick hfetch, runWord_of_haltWord hhalt']
  rfl

/-! ### The exceptions of a fetch, and the fetch from the peripheral window -/

theorem fetch_misaligned {s : State} (h : s.pc.toNat % 4 ≠ 0) : fetch s = .exc (.alignment s.pc) s := by
  simp [fetch, readVia, misaligned_word, h]

theorem fetch_of_translate_error {s : State} {c : Cause} (haligned : s.pc.toNat % 4 = 0)
    (h : translate .insn false s.pc s = .error c) : fetch s = .exc c s := by
  simp [fetch, readVia, misaligned_word, haligned, h]

/-- A fetch that translation lets through gives the word of the physical read (R132). -/
theorem fetch_of_read {s u : State} {pa w : Word} (haligned : s.pc.toNat % 4 = 0)
    (hpa : translate .insn false s.pc s = .ok pa) (h : physRead pa .word s = (some w, u)) : fetch s = .ok w u := by
  simp [fetch, readVia, misaligned_word, haligned, hpa, h]

/-- A physical read that is refused is a bus error at pc (R132, 20_memory.md R69). -/
theorem fetch_of_refusal {s u : State} {pa : Word} (haligned : s.pc.toNat % 4 = 0)
    (hpa : translate .insn false s.pc s = .ok pa) (h : physRead pa .word s = (none, u)) :
    fetch s = .exc (.busError s.pc) u := by
  simp [fetch, readVia, misaligned_word, haligned, hpa, h]

theorem physRead_unmapped {pa : Word} {w : Width} {s : State} (h : regionOf s.cfg pa w = .unmapped) :
    physRead pa w s = (none, s) := by
  simp [physRead, h]

/-- The word read of the peripheral in a cycle: its answer, and the read recorded with it (20_memory.md R68). -/
theorem physRead_device_tickPhase {pa : Word} {s : State} {answer : Option Word}
    (hregion : regionOf s.cfg pa .word = .device) (hread : Config.deviceRead s.device pa .word = answer) :
    physRead pa .word (tickPhase s) =
      (answer, { tickPhase s with device := .read pa .word answer :: s.device }) := by
  simp [physRead, hregion, hread, lowBits]

theorem cycle_of_fetch_ok {s u : State} {w : Word} (htick : ¬(TicksNext s ∧ s.tickEnabled = true))
    (h : fetch (tickPhase s) = .ok w u) : cycle s = runWord w u := by
  unfold cycle
  rw [if_neg (mt (tickFires_iff s).1 htick), h]

/-- An exception raised after the fetch has met the peripheral is entered with pc as the saved pc. -/
theorem raise_after_fetch (c : Cause) (s : State) (dev : List DeviceEvent) :
    ∃ t, raise c { tickPhase s with device := dev } = .next t ∧ Enters c s.pc (tickPhase s) t ∧ t.device = dev :=
  tickPhase_pc s ▸ raise_next c { tickPhase s with device := dev }

/-- A cycle whose fetch raises an exception enters it with pc as the saved pc (R132). -/
theorem cycle_of_fetch_exc {s : State} {c : Cause} {dev : List DeviceEvent}
    (htick : ¬(TicksNext s ∧ s.tickEnabled = true))
    (h : fetch (tickPhase s) = .exc c { tickPhase s with device := dev }) :
    ∃ t, cycle s = .next t ∧ Enters c s.pc (tickPhase s) t ∧ t.device = dev := by
  unfold cycle
  rw [if_neg (mt (tickFires_iff s).1 htick), h]
  exact raise_after_fetch c s dev

/-- The usual case: the fetch has not met the peripheral. -/
theorem cycle_enters_of_fetch {s : State} {c : Cause} (htick : ¬(TicksNext s ∧ s.tickEnabled = true))
    (h : fetch (tickPhase s) = .exc c (tickPhase s)) : ∃ t, cycle s = .next t ∧ Enters c s.pc (tickPhase s) t := by
  obtain ⟨t, hnext, henters, _⟩ := cycle_of_fetch_exc (dev := (tickPhase s).device) htick h
  exact ⟨t, hnext, henters⟩

theorem cycle_enters_of_translate_error {s : State} {c : Cause} (htick : ¬(TicksNext s ∧ s.tickEnabled = true))
    (haligned : s.pc.toNat % 4 = 0) (h : translate .insn false s.pc s = .error c) :
    ∃ t, cycle s = .next t ∧ Enters c s.pc (tickPhase s) t :=
  cycle_enters_of_fetch htick (fetch_of_translate_error (by simpa using haligned) (by simpa using h))

/-- Settles O10: the fetch goes through alignment, translation and the physical read in this order; what the peripheral
answers is run. -/
theorem fetchExceptions : Obligations.FetchExceptions := by
  intro s htick
  have hpc : (tickPhase s).pc = s.pc := tickPhase_pc s
  refine ⟨fun hmis => ?misaligned, fun haligned hon hmiss => ?miss, fun tr haligned hon hhit hdenied => ?denied,
    fun pa haligned hpa hregion => ?unmapped, fun pa haligned hpa hregion => ?device⟩
  case misaligned => exact hpc ▸ cycle_enters_of_fetch htick (fetch_misaligned (hpc.symm ▸ hmis))
  case miss => exact cycle_enters_of_translate_error htick haligned (translate_miss (side := .insn) hon hmiss)
  case denied =>
    refine cycle_enters_of_translate_error htick haligned ?_
    rw [translate_hit (side := .insn) hon hhit, hdenied]
    rfl
  all_goals
    have haligned' : (tickPhase s).pc.toNat % 4 = 0 := hpc.symm ▸ haligned
    have hpa' : translate .insn false (tickPhase s).pc (tickPhase s) = .ok pa := by simpa using hpa
  case unmapped =>
    have hrefused := fetch_of_refusal haligned' hpa' (physRead_unmapped (by simpa using hregion))
    simpa using cycle_enters_of_fetch htick hrefused
  case device =>
    cases hread : Config.deviceRead s.device pa .word with
    | none =>
      have hrefused := fetch_of_refusal haligned' hpa' (physRead_device_tickPhase hregion hread)
      simpa using cycle_of_fetch_exc htick hrefused
    | some w =>
      have hcycle := cycle_of_fetch_ok htick (fetch_of_read haligned' hpa' (physRead_device_tickPhase hregion hread))
      rw [hcycle]
      refine ⟨fun hhalt => ?halt, fun hhalt hnone => ?illegal, fun i hhalt hdecode => ?executed⟩
      case halt => exact runWord_of_haltWord (by simpa using hhalt)
      case illegal =>
        obtain ⟨e, he⟩ := (rejectedWordsHaveNoRow w).2 hnone
        rw [runWord_of_rejected (by simpa using hhalt) he]
        exact raise_after_fetch .illegal s _
      case executed => exact runWord_of_decoded (by simpa using hhalt) hdecode

/-! ### No fault of the model -/

/-- The outcome is a next state or a refusal. -/
def NeverFaults (r : Result) : Prop := ∀ f, r ≠ .fault f

theorem next_neverFaults (t : State) : NeverFaults (.next t) := nofun

theorem refused_neverFaults (r : Refusal) : NeverFaults (.refused r) := nofun

theorem ite_neverFaults {p : Prop} [Decidable p] {r q : Result} (hr : NeverFaults r) (hq : NeverFaults q) :
    NeverFaults (if p then r else q) := by
  split
  · exact hr
  · exact hq

theorem loadWith_neverFaults {w : Width} {f : Word → Word} {d a : Reg} {i : BitVec 16} {s : State} :
    NeverFaults (loadWith w f d a i s) := by
  unfold loadWith
  split
  · exact next_neverFaults _
  · exact next_neverFaults _

theorem storeWith_neverFaults {w : Width} {a b : Reg} {i : BitVec 16} {s : State} :
    NeverFaults (storeWith w a b i s) := by
  unfold storeWith
  split
  · exact next_neverFaults _
  · exact next_neverFaults _

/-- An instruction completes, enters an exception or is refused (40_fetch_and_sequencing.md R135). -/
theorem exec_neverFaults (i : Instr) (s : State) : NeverFaults (exec i s) := by
  cases i with
  | slli | srli | srai | rori | div | j | jal | jr | jalr | mfspr | mtspr | sys =>
    exact ite_neverFaults (refused_neverFaults _) (next_neverFaults _)
  | bnf | bf =>
    exact ite_neverFaults (refused_neverFaults _) (ite_neverFaults (next_neverFaults _) (next_neverFaults _))
  | rfe => exact ite_neverFaults (refused_neverFaults _) (ite_neverFaults (refused_neverFaults _) (next_neverFaults _))
  | lwz | lws | lbz | lbs | lhz | lhs => exact loadWith_neverFaults
  | sw | sb | sh => exact storeWith_neverFaults
  | addc | muld | muldu | extws | extwz | macrc | adrp | lv | maci | lf | lwa | cust1 | cust2 | cust3 | cust4 | ld | addic
  | mac | lfp | swa | sd | cust5 | cust6 | cust7 | cust8 => exact refused_neverFaults _
  | _ => exact next_neverFaults _

theorem runWord_neverFaults (w : Word) (s : State) : NeverFaults (runWord w s) := by
  unfold runWord
  refine ite_neverFaults (next_neverFaults _) ?_
  split
  · exact exec_neverFaults _ s
  · exact next_neverFaults _

theorem cycle_neverFaults (s : State) : NeverFaults (cycle s) := by
  obtain ⟨_, hc⟩ | ⟨_, ⟨c, dev, hc⟩ | ⟨w, dev, _, hc⟩⟩ := cycle_cases s <;> rw [hc]
  · exact next_neverFaults _
  · exact next_neverFaults _
  · exact runWord_neverFaults w _

/-- Settles O18: a cycle takes an exception or runs a word, and no instruction answers a fault. -/
theorem instructionsNeverFault : Obligations.InstructionsNeverFault := ⟨exec_neverFaults, cycle_neverFaults⟩

/-! ### The alignment of pc -/

theorem add_four_aligned {a : Word} (h : a.toNat % 4 = 0) : (a + 4#32).toNat % 4 = 0 := by
  rw [BitVec.toNat_add, BitVec.toNat_ofNat]
  omega

theorem add_wordOffset_aligned {a : Word} (h : a.toNat % 4 = 0) (n : Int) :
    (a + BitVec.ofInt 32 (4 * n)).toNat % 4 = 0 := by
  rw [BitVec.toNat_add, BitVec.toNat_ofInt]
  omega

/-- A transfer from an aligned pc has an aligned target, but for a jump to a register (43_control.md R217). -/
theorem takenTarget_aligned {i : Instr} {s : State} {target : Word} (hpc : s.pc.toNat % 4 = 0)
    (hreg : ∀ b, i = .jr b ∨ i = .jalr b → (s.reg b).toNat % 4 = 0) (h : takenTarget i s = some target) :
    target.toNat % 4 = 0 := by
  cases i with
  | j n | jal n => cases h; exact add_wordOffset_aligned hpc _
  | bnf n | bf n =>
    simp only [takenTarget] at h
    split_ifs at h
    cases h
    exact add_wordOffset_aligned hpc _
  | jr b => cases h; exact hreg b (.inl rfl)
  | jalr b => cases h; exact hreg b (.inr rfl)
  | _ => cases h

/-- The state after has an aligned pc, in a delay slot an aligned DNPC, and an aligned DNPC if it was so before. -/
structure AlignedAfter (s t : State) : Prop where
  pc : t.pc.toNat % 4 = 0
  slot : t.df = true → t.dnpc.toNat % 4 = 0
  dnpc : s.dnpc.toNat % 4 = 0 → t.dnpc.toNat % 4 = 0

namespace AlignedAfter

/-- Going on from `u`, whose sequencing fields are those of `s` (40_fetch_and_sequencing.md R136). -/
theorem seqNext {s u : State} (hpc : s.pc.toNat % 4 = 0) (hslot : s.df = true → s.dnpc.toNat % 4 = 0)
    (hupc : u.pc = s.pc) (hudf : u.df = s.df) (hudnpc : u.dnpc = s.dnpc) : AlignedAfter s u.seqNext where
  pc := by
    rw [seqNext_pc, hupc, hudf, hudnpc]
    split
    · exact hslot (by assumption)
    · exact add_four_aligned hpc
  slot := nofun
  dnpc h := hudnpc.symm ▸ h

/-- A taken transfer from `u`, at the same pc as `s` (R137). -/
theorem seqJump {s u : State} {target : Word} (hpc : s.pc.toNat % 4 = 0) (hupc : u.pc = s.pc)
    (htarget : target.toNat % 4 = 0) : AlignedAfter s (u.seqJump target) where
  pc := by
    rw [seqJump_pc, hupc]
    exact add_four_aligned hpc
  slot _ := htarget
  dnpc _ := htarget

/-- The entry of an exception: every vector is aligned (60_exceptions.md R270), and DNPC is left. -/
theorem enters {c : Cause} {savedPC : Word} {s t : State} (h : Enters c savedPC s t) : AlignedAfter s t := by
  obtain ⟨hpc, -, -, -, -, hdf, hdnpc, -⟩ := h
  exact ⟨hpc ▸ vectorOf_aligned c, fun hslot => (nomatch hdf.symm.trans hslot), hdnpc.symm ▸ id⟩

end AlignedAfter

/-- Settles O23: each effect of an instruction goes on, transfers to an aligned target, enters at a vector, or returns. -/
theorem sequencingKeepsPcAligned : Obligations.SequencingKeepsPcAligned := by
  intro i s t hpc hslot h hreg hrfe
  have hafter : AlignedAfter s t := by
    cases exec_effect h with
    | writes | goesOn | flag | stores => exact .seqNext hpc hslot rfl rfl rfl
    | special a b k =>
      obtain ⟨-, hwpc, hwdf, hwdnpc, -⟩ := sprWrite_frame (decodeSpr (s.sprAddress a k)) (s.reg b) s
      exact .seqNext hpc hslot hwpc hwdf hwdnpc
    | jumps target _ ht | links target _ ht => exact .seqJump hpc rfl (takenTarget_aligned hpc hreg ht)
    | raises c dev => exact .enters ((enters_device ..).1 (dispatch_enters c s.pc { s with device := dev }))
    | calls => exact .enters (dispatch_enters ..)
    | returns hi => exact ⟨hrfe hi, nofun, id⟩
  exact ⟨hafter.pc, hafter.slot, hafter.dnpc⟩

/-! ### The delay slot -/

/-- A load or store is no transfer. -/
theorem takenTarget_of_dataAccess {i : Instr} {x : DataAccess} (h : dataAccess i = some x) (s : State) :
    takenTarget i s = none := by
  cases i with
  | lwz | lws | lbz | lbs | lhz | lhs | sw | sb | sh => rfl
  | _ => cases h

/-- A transfer that is taken was not in a delay slot, and puts the next instruction into one (R137, R140). -/
theorem exec_taken {i : Instr} {s t : State} {target : Word} (ht : takenTarget i s = some target)
    (h : exec i s = .next t) : s.df = false ∧ TransfersTo target s t := by
  cases exec_effect h with
  | jumps _ hdf ht' | links _ hdf ht' => cases ht'.symm.trans ht; exact ⟨hdf, rfl, rfl, rfl⟩
  | writes _ _ _ _ _ hnone | goesOn _ _ hnone | flag _ _ hnone | raises _ _ hnone => cases hnone.symm.trans ht
  | stores _ _ _ _ _ hi => cases (takenTarget_of_dataAccess hi s).symm.trans ht
  | special _ _ _ hi | calls _ hi | returns hi => subst hi; cases ht

/-- How the step of a delay slot ends: at the target, halted in the slot, or in an exception that saves the address of the
transfer before it, with DSX set (40_fetch_and_sequencing.md R141, 60_exceptions.md R271). -/
def EndsDelaySlot (target slot : Word) (u : State) : Prop :=
  (u.pc = target ∧ u.df = false) ∨ (u.halted = true ∧ u.pc = slot ∧ u.df = true) ∨
    ∃ c, u.pc = vectorOf c ∧ u.epcr0 = slot - 4#32 ∧ u.esr0.getLsbD 13 = true ∧ u.df = false

theorem raise_endsDelaySlot {c : Cause} {s t : State} (hdf : s.df = true) (h : raise c s = .next t) :
    EndsDelaySlot s.dnpc s.pc t := by
  cases h
  exact .inr (.inr ⟨c, vector_eq_vectorOf c, by simp [hdf], by simp [hdf, srDSX], rfl⟩)

theorem exec_endsDelaySlot {i : Instr} {s t : State} (hdf : s.df = true) (h : exec i s = .next t) :
    EndsDelaySlot s.dnpc s.pc t := by
  cases exec_effect h with
  | writes | goesOn | flag | stores => exact .inl ⟨if_pos hdf, rfl⟩
  | special a b k =>
    obtain ⟨-, -, hwdf, hwdnpc, -⟩ := sprWrite_frame (decodeSpr (s.sprAddress a k)) (s.reg b) s
    exact .inl ⟨by rw [seqNext_pc, hwdf, hwdnpc, if_pos hdf], rfl⟩
  | jumps _ hout | links _ hout | calls _ _ hout | returns _ _ hout => cases hdf.symm.trans hout
  | raises c dev => exact raise_endsDelaySlot (s := { s with device := dev }) hdf rfl

theorem runWord_endsDelaySlot {w : Word} {s t : State} (hdf : s.df = true) (h : runWord w s = .next t) :
    EndsDelaySlot s.dnpc s.pc t := by
  obtain ⟨_, rfl⟩ | ⟨_, _, hraise⟩ | ⟨_, i, _, hexec⟩ := runWord_cases h
  · exact .inr (.inl ⟨rfl, rfl, hdf⟩)
  · exact raise_endsDelaySlot hdf hraise
  · exact exec_endsDelaySlot hdf hexec

theorem cycle_endsDelaySlot {s t : State} (hdf : s.df = true) (h : cycle s = .next t) :
    EndsDelaySlot s.dnpc s.pc t := by
  rw [← tickPhase_df] at hdf
  rw [← tickPhase_pc, ← tickPhase_dnpc]
  obtain ⟨_, hc⟩ | ⟨_, ⟨c, dev, hc⟩ | ⟨w, dev, _, hc⟩⟩ := cycle_cases s <;> rw [hc] at h
  · exact raise_endsDelaySlot hdf h
  · exact raise_endsDelaySlot (s := { tickPhase s with device := dev }) hdf h
  · exact runWord_endsDelaySlot (s := { tickPhase s with device := dev }) hdf h

theorem step_endsDelaySlot {s t : State} (hcycles : s.cycles = true) (hdf : s.df = true) (h : step s = .next t) :
    EndsDelaySlot s.dnpc s.pc t := by
  obtain ⟨_, hstep⟩ | ⟨hcall, _⟩ := step_cases s
  · rw [hstep] at h
    obtain ⟨u, hu, rfl⟩ := afterCycle_next h
    have hends := cycle_endsDelaySlot (by simpa using hdf) hu
    rw [spendBudget_pc, spendBudget_dnpc] at hends
    rw [(closeRun_eq u).1]
    exact hends
  · cases hcycles.symm.trans hcall

/-- Settles O24: the transfer leaves its target in DNPC with DF set, and the step after it ends a delay slot. -/
theorem delaySlotLaw : Obligations.DelaySlotLaw := by
  intro s t u w i target hcycles htick hfetch hhalt hdecode htarget hst htcycles htu
  rw [stepRunsTheDecodedInstruction s w i hcycles htick hfetch hhalt hdecode] at hst
  obtain ⟨v, hexec, rfl⟩ := afterCycle_next hst
  obtain ⟨hdf, hpc, hslot, hdnpc⟩ := exec_taken ((takenTarget_cycleState i s).trans htarget) hexec
  rw [tickPhase_pc, spendBudget_pc] at hpc
  rw [tickPhase_df, spendBudget_df] at hdf
  have hclosed := (closeRun_eq v).1
  have hpc' : (closeRun v).pc = s.pc + 4#32 := by rw [hclosed]; exact hpc
  have hdnpc' : (closeRun v).dnpc = target := by rw [hclosed]; exact hdnpc
  have hends := step_endsDelaySlot htcycles (by rw [hclosed]; exact hslot) htu
  rw [hpc', hdnpc', EndsDelaySlot, BitVec.add_sub_cancel] at hends
  exact ⟨hdf, hpc', hends⟩

/-! ### `l.rfe`, and what a delay slot refuses -/

/-- The jumps and branches are refused in a delay slot, taken or not (R140). -/
theorem exec_transfer_refused {i : Instr} {s : State} (hdf : s.df = true) (h : isTransfer i = true) :
    exec i s = .refused .transferInDelaySlot := by
  cases i with
  | j | jal | bnf | bf | jr | jalr => exact if_pos hdf
  | _ => cases h

theorem exec_rfe_denied {s : State} (h : ¬SystemAllowed s) : exec .rfe s = .refused .userRfe := by
  have hdenied : s.systemDenied = true := by
    rw [← Bool.not_eq_false, systemDenied_eq_false]
    exact h
  exact if_pos hdenied

/-- Where `l.rfe` may execute, it is refused in a delay slot and returns outside one (45_system.md R254). -/
theorem exec_rfe_allowed {s : State} (h : SystemAllowed s) :
    exec .rfe s = if s.df then .refused .rfeInDelaySlot else .next (returnFromException s) := by
  change (if s.systemDenied then _ else _) = _
  rw [(systemDenied_eq_false s).2 h]
  rfl

/-- Settles O25: each of these instructions looks at DF before it does anything, `l.rfe` after the mode. -/
theorem delaySlotRefusals : Obligations.DelaySlotRefusals := by
  intro s hdf
  refine ⟨fun i hi => exec_transfer_refused hdf hi, fun k => if_pos hdf, fun hallowed => ?_, exec_rfe_denied⟩
  rw [exec_rfe_allowed hallowed, if_pos hdf]

/-- The return from an exception takes SR from ESR0 but for FO (10_state.md R26). -/
theorem returnFromException_otherBits (s : State) {k : Nat} (h : k ≠ 15) :
    (returnFromException s).sr.getLsbD k = s.esr0.getLsbD k := by
  have hfo : srFO.getLsbD k = false := by
    have hone : srFO = BitVec.twoPow 32 15 := by decide
    rw [hone, BitVec.getLsbD_twoPow]
    simp [Ne.symm h]
  rw [returnFromException_sr, BitVec.getLsbD_or, hfo, Bool.or_false]

/-- Settles O15: `l.rfe` that is not refused is the return from an exception. -/
theorem returnRestores : Obligations.ReturnRestores := by
  intro s hallowed hdf
  refine ⟨returnFromException s, ?_, rfl, returnFromException_fixedOne s, fun k hk => returnFromException_otherBits s hk,
    rfl, rfl, fun _ => rfl, ⟨rfl, rfl, rfl, rfl, rfl, rfl, rfl, rfl, rfl⟩, fun _ => rfl, ⟨rfl, rfl, rfl, rfl, rfl, rfl⟩⟩
  simp [exec_rfe_allowed hallowed, hdf]

end Sys2Proof.Machine

/-! SUPPORT. The proofs of the statements of 41_alu.md: each value an ALU instruction writes, in numbers or bit by bit. -/

namespace Sys2Proof.Machine

/-- The usual completion of an ALU instruction: the register written with a value known under another name. -/
theorem onlyWrites_of_eq {d : Reg} {v w : Word} {s : State} {r : Result} (h : r = writeBack d v s) (hv : v = w) :
    ∃ t, r = .next t ∧ OnlyWrites d w s t := by
  subst hv h
  exact writeBack_next d v s

/-! ### Sums and differences -/

theorem word_sub_eq_ofInt (x y : Word) : x - y = BitVec.ofInt 32 (x.toInt - y.toInt) := by
  rw [Int.sub_eq_add_neg, BitVec.ofInt_add, BitVec.ofInt_neg, BitVec.ofInt_toInt, BitVec.ofInt_toInt,
    BitVec.sub_eq_add_neg]

/-- Settles O30: the machine's sum and difference are the exact ones modulo 2^32; the sum of `l.addi` is that of an
effective address. -/
theorem addAndSubtractWrap : Obligations.AddAndSubtractWrap := by
  intro d a b k s
  exact ⟨onlyWrites_of_eq (v := s.reg a + s.reg b) rfl (BitVec.add_def _ _),
    onlyWrites_of_eq (v := s.effectiveAddress a k) rfl (effectiveAddress_eq a k s),
    onlyWrites_of_eq rfl (word_sub_eq_ofInt _ _)⟩

/-! ### Bits -/

theorem zext16_getLsbD (k : Half) (n : Nat) : (zext16 k).getLsbD n = (decide (n < 16) && k.getLsbD n) := by
  rw [zext16, BitVec.zeroExtend, BitVec.getLsbD_setWidth]
  by_cases hn : n < 16
  · simp [hn, Nat.lt_trans hn (by decide : 16 < 32)]
  · simp [hn, BitVec.getLsbD_of_ge k n (by omega)]

theorem sext16_getLsbD (k : Half) {n : Nat} (hn : n < 32) :
    (sext16 k).getLsbD n = if n < 16 then k.getLsbD n else k.getLsbD 15 := by
  rw [sext16, BitVec.getLsbD_signExtend, BitVec.msb_eq_getLsbD_last, decide_eq_true hn, Bool.true_and]

theorem upperHalf_toNat (k : Half) : (k ++ 0#16 : Word).toNat = k.toNat * 65536 := by
  rw [BitVec.toNat_append, BitVec.toNat_ofNat, Nat.zero_mod, Nat.or_zero, Nat.shiftLeft_eq]

/-- Settles O31: a bit of the result is the operation on the bits of the operands, an immediate read through its
extension. -/
theorem bitwiseResults : Obligations.BitwiseResults := by
  intro d a b k s
  refine ⟨onlyWrites_of rfl fun n _ => BitVec.getLsbD_and, onlyWrites_of rfl fun n _ => BitVec.getLsbD_or,
    onlyWrites_of rfl fun n _ => BitVec.getLsbD_xor, onlyWrites_of rfl fun n _ => ?andi,
    onlyWrites_of rfl fun n _ => ?ori, onlyWrites_of rfl fun n hn => ?xori, onlyWrites_of rfl (upperHalf_toNat k)⟩
  case andi => rw [BitVec.getLsbD_and, zext16_getLsbD]
  case ori => rw [BitVec.getLsbD_or, zext16_getLsbD]
  case xori => rw [BitVec.getLsbD_xor, sext16_getLsbD k hn]

/-! ### Products -/

theorem mulSigned_eq_mul (x y : Word) : mulSigned x y = x * y := by
  rw [mulSigned, BitVec.ofInt_mul, BitVec.ofInt_toInt, BitVec.ofInt_toInt]

theorem mulUnsigned_eq_mul (x y : Word) : mulUnsigned x y = x * y := rfl

/-- The low word of the product does not tell signed from unsigned operands (41_alu.md R165, R166). -/
theorem mulUnsigned_eq_mulSigned (x y : Word) : mulUnsigned x y = mulSigned x y := by
  rw [mulUnsigned_eq_mul, mulSigned_eq_mul]

theorem mulUnsigned_toNat (x y : Word) : (mulUnsigned x y).toNat = x.toNat * y.toNat % 4294967296 := BitVec.toNat_ofNat ..

/-- Settles O32: the two products are one word, which `mulSigned` gives as the signed and `mulUnsigned` as the unsigned
product modulo 2^32. -/
theorem multiplyKeepsTheLowWord : Obligations.MultiplyKeepsTheLowWord := by
  intro d a b k s
  refine ⟨onlyWrites_of rfl ⟨rfl, ?mul⟩, onlyWrites_of rfl ⟨mulUnsigned_eq_mulSigned _ _, mulUnsigned_toNat _ _⟩,
    onlyWrites_of rfl ?muli⟩
  case mul => rw [← mulUnsigned_eq_mulSigned, mulUnsigned_toNat]
  case muli => rw [mulSigned, sext16_toInt]

/-! ### Quotients -/

@[simp] theorem divSigned_zero (x : Word) : divSigned x 0#32 = 0#32 := if_pos rfl

@[simp] theorem divUnsigned_zero (x : Word) : divUnsigned x 0#32 = 0#32 := if_pos rfl

theorem exec_div_overflow {d a b : Reg} {s : State} (h : divOverflows (s.reg a) (s.reg b) = true) :
    exec (.div d a b) s = .refused .divisionOverflow := if_pos h

theorem exec_div_fits {d a b : Reg} {s : State} (h : ¬divOverflows (s.reg a) (s.reg b) = true) :
    exec (.div d a b) s = writeBack d (divSigned (s.reg a) (s.reg b)) s := if_neg h

/-- But for the overflow, the quotient is the exact one truncated toward zero (41_alu.md R167). -/
theorem divSigned_toInt {x y : Word} (h : ¬divOverflows x y = true) : (divSigned x y).toInt = x.toInt.tdiv y.toInt := by
  by_cases hy : y = 0#32
  · simp [hy]
  · have hfits : x ≠ BitVec.intMin 32 ∨ y ≠ -1#32 := by
      contrapose! h
      obtain ⟨rfl, rfl⟩ := h
      decide
    rw [divSigned, if_neg hy, BitVec.toInt_ofInt, ← BitVec.toInt_sdiv, BitVec.toInt_sdiv_of_ne_or_ne x y hfits]

/-- The rest of the truncated division has the sign of the dividend. -/
theorem mul_tmod_nonneg (x y : Int) : 0 ≤ x * x.tmod y := by
  obtain hx | hx := Int.le_total 0 x
  · exact Int.mul_nonneg hx (Int.tmod_nonneg y hx)
  · have hneg : 0 ≤ (-x).tmod y := Int.tmod_nonneg y (by omega)
    rw [Int.neg_tmod] at hneg
    exact Int.mul_nonneg_of_nonpos_of_nonpos hx (by omega)

theorem natAbs_tmod_lt (x : Int) {y : Int} (hy : y ≠ 0) : (x.tmod y).natAbs < y.natAbs := by
  rw [Int.natAbs_tmod]
  exact Nat.mod_lt _ (Int.natAbs_pos.2 hy)

theorem divUnsigned_toNat (x y : Word) : (divUnsigned x y).toNat = x.toNat / y.toNat := by
  by_cases hy : y = 0#32
  · simp [hy]
  · rw [divUnsigned, if_neg hy, BitVec.toNat_ofNat, Nat.mod_eq_of_lt (Nat.lt_of_le_of_lt (Nat.div_le_self ..) x.isLt)]

/-- Settles O33: the rest that the quotient of `l.div` leaves is the remainder of the truncated division, and the quotient
of `l.divu` is that of the natural numbers. -/
theorem division : Obligations.Division := by
  intro d a b s
  refine ⟨fun hzero => ?zero, fun hmin hone => exec_div_overflow ((divOverflows_iff ..).2 ⟨hmin, hone⟩),
    fun hne hfits => ?quotient, fun hzero => ?unsignedZero, fun hne => onlyWrites_of rfl ?unsignedQuotient⟩
  case zero =>
    have hb : s.reg b = 0#32 := BitVec.eq_of_toInt_eq hzero
    refine onlyWrites_of_eq (exec_div_fits ?_) (by rw [hb, divSigned_zero])
    rw [divOverflows_iff]
    omega
  case quotient =>
    have hfits' : ¬divOverflows (s.reg a) (s.reg b) = true := mt (divOverflows_iff ..).1 hfits
    refine onlyWrites_of (exec_div_fits hfits') ?_
    rw [divSigned_toInt hfits', Int.mul_comm _ (s.reg b).toInt, ← Int.tmod_def]
    exact ⟨natAbs_tmod_lt _ hne, mul_tmod_nonneg _ _⟩
  case unsignedZero =>
    have hb : s.reg b = 0#32 := BitVec.eq_of_toNat_eq hzero
    exact onlyWrites_of_eq rfl (by rw [hb, divUnsigned_zero])
  case unsignedQuotient =>
    rw [divUnsigned_toNat]
    exact ⟨Nat.div_mul_le_self .., Nat.lt_mul_of_div_lt (Nat.lt_succ_self _) (Nat.pos_of_ne_zero hne)⟩

/-! ### Shifts and rotations -/

theorem shiftLeft_toNat (x : Word) (n : Nat) : (x <<< n).toNat = x.toNat * 2 ^ n % 4294967296 := by
  rw [BitVec.toNat_shiftLeft, Nat.shiftLeft_eq]

theorem ushiftRight_toNat (x : Word) (n : Nat) : (x >>> n).toNat = x.toNat / 2 ^ n := by
  rw [BitVec.toNat_ushiftRight, Nat.shiftRight_eq_div_pow]

theorem shiftImmediate_below {f : Word → Nat → Word} {d a : Reg} {l : Nat} {s : State} (hl : l < 32) :
    shiftImmediate f d a l s = writeBack d (f (s.reg a) l) s := if_neg (Nat.not_le.2 hl)

theorem shiftImmediate_above {f : Word → Nat → Word} {d a : Reg} {l : Nat} {s : State} (hl : 32 ≤ l) :
    shiftImmediate f d a l s = .refused .shiftAmountAbove31 := if_pos hl

/-- Settles O34: the shifts in numbers and the rotation bit by bit, by the amount modulo 32. -/
theorem registerShifts : Obligations.RegisterShifts := by
  intro d a b s
  rw [← shiftAmount_eq]
  have hamount : shiftAmount (s.reg b) < 32 := (shiftAmount_eq _).trans_lt (Nat.mod_lt _ (by decide))
  exact ⟨onlyWrites_of rfl (shiftLeft_toNat _ _), onlyWrites_of rfl (ushiftRight_toNat _ _),
    onlyWrites_of rfl (sshiftRight_toInt _ _), onlyWrites_of rfl fun _ hk => rotateRight_getLsbD _ hamount hk⟩

/-- Settles O35: below 32 the same four results as of the shifts by a register, from 32 on the refusal. -/
theorem immediateShifts : Obligations.ImmediateShifts := by
  intro d a l s
  exact ⟨fun hl => ⟨onlyWrites_of (shiftImmediate_below hl) (shiftLeft_toNat _ _),
      onlyWrites_of (shiftImmediate_below hl) (ushiftRight_toNat _ _),
      onlyWrites_of (shiftImmediate_below hl) (sshiftRight_toInt _ _),
      onlyWrites_of (shiftImmediate_below hl) fun _ hk => rotateRight_getLsbD _ hl hk⟩,
    fun hl => ⟨shiftImmediate_above hl, shiftImmediate_above hl, shiftImmediate_above hl, shiftImmediate_above hl⟩⟩

/-! ### Extensions and the conditional move -/

theorem sext8_toInt (b : Byte) : (sext8 b).toInt = b.toInt := BitVec.toInt_signExtend_of_le (by omega)

theorem lowHalf_toInt (x : Word) : (lowHalf x).toInt = Int.bmod x.toNat 65536 := BitVec.toInt_extractLsb'

theorem lowByte_toInt (x : Word) : (lowByte x).toInt = Int.bmod x.toNat 256 := BitVec.toInt_extractLsb'

/-- Settles O36: a sign extension keeps the signed integer and a zero extension the unsigned one of the low part. -/
theorem extensionsAndConditionalMove : Obligations.ExtensionsAndConditionalMove := by
  intro d a b s
  refine ⟨onlyWrites_of rfl ?exths, onlyWrites_of rfl ?extbs, onlyWrites_of rfl (lowBits_toNat (s.reg a) .half),
    onlyWrites_of rfl (lowBits_toNat (s.reg a) .byte), writeBack_next d _ s⟩
  case exths => rw [sext16_toInt, lowHalf_toInt]
  case extbs => rw [sext8_toInt, lowByte_toInt]

/-! ### Bit searches -/

/-- The search from below stops at the lowest 1 bit (41_alu.md R178). -/
theorem findFirstOne_of_lowest {x : Word} {k : Nat} (hk : k < 32) (hone : x.getLsbD k = true)
    (hbelow : ∀ m < k, x.getLsbD m = false) : findFirstOne x = BitVec.ofNat 32 (k + 1) := by
  have hfind : (List.range 32).find? (fun n => x.getLsbD n) = some k :=
    List.find?_range_eq_some.2 ⟨hone, List.mem_range.2 hk, fun m hm => by rw [hbelow m hm, Bool.not_false]⟩
  rw [findFirstOne, hfind]

/-- The search from above stops at the highest 1 bit: it is at place `31 - k` of the indices in falling order (R179). -/
theorem findLastOne_of_highest {x : Word} {k : Nat} (hk : k < 32) (hone : x.getLsbD k = true)
    (habove : ∀ m, k < m → x.getLsbD m = false) : findLastOne x = BitVec.ofNat 32 (k + 1) := by
  have hfind : (List.range 32).reverse.find? (fun n => x.getLsbD n) = some k := by
    refine List.find?_eq_some_iff_getElem.2 ⟨hone, 31 - k, by simp; omega, ?place, fun m hm => ?before⟩
    case place =>
      rw [List.getElem_reverse, List.getElem_range, List.length_range]
      omega
    case before =>
      rw [List.getElem_reverse, List.getElem_range, List.length_range, habove _ (by omega), Bool.not_false]
  rw [findLastOne, hfind]

theorem bitNumber_toNat {k : Nat} (hk : k < 32) : (BitVec.ofNat 32 (k + 1)).toNat = k + 1 :=
  BitVec.toNat_ofNat .. |>.trans (Nat.mod_eq_of_lt (by omega))

/-- Settles O37: the searches find the lowest and the highest 1 bit, and nothing in 0. -/
theorem bitSearch : Obligations.BitSearch := by
  refine fun d a s => ⟨onlyWrites_of rfl ⟨fun h => ?firstZero, fun k hk hone hbelow => ?first⟩,
    onlyWrites_of rfl ⟨fun h => ?lastZero, fun k hk hone habove => ?last⟩⟩
  case firstZero => rw [h]; decide
  case first => rw [findFirstOne_of_lowest hk hone hbelow, bitNumber_toNat hk]
  case lastZero => rw [h]; decide
  case last => rw [findLastOne_of_highest hk hone habove, bitNumber_toNat hk]

end Sys2Proof.Machine

/-! SUPPORT. The proofs of the statements of 42_compare.md: the condition of each compare in numbers, the immediate through
its sign extension. -/

namespace Sys2Proof.Machine

/-! ### The conditions in numbers -/

theorem test_eq (x y : Word) : Condition.eq.test x y = decide (x = y) := beq_eq_decide x y

theorem test_ne (x y : Word) : Condition.ne.test x y = decide (x ≠ y) :=
  (congrArg not (test_eq x y)).trans decide_not.symm

theorem eq_sext16_iff (x : Word) (k : BitVec 16) : x = sext16 k ↔ x.toInt = k.toInt := by
  rw [← sext16_toInt, BitVec.toInt_inj]

/-- A sign-extended immediate, read as unsigned, is the signed immediate modulo 2^32 (42_compare.md R202 to R205). -/
theorem sext16_toNat (k : BitVec 16) : ((sext16 k).toNat : Int) = k.toInt % 4294967296 := by
  rw [sext16_eq_ofInt, BitVec.toNat_ofInt]
  exact Int.toNat_of_nonneg (Int.emod_nonneg _ (by decide))

/-! ### The statements about the compares -/

/-- Settles O38: each compare sets F to the test of its condition, and the eight tests of an order are comparisons of the
numbers as they stand. -/
theorem registerCompares : Obligations.RegisterCompares := by
  intro a b s
  exact ⟨onlySetsFlag_of rfl (test_eq _ _), onlySetsFlag_of rfl (test_ne _ _),
    onlySetsFlag_of rfl rfl, onlySetsFlag_of rfl rfl, onlySetsFlag_of rfl rfl, onlySetsFlag_of rfl rfl,
    onlySetsFlag_of rfl rfl, onlySetsFlag_of rfl rfl, onlySetsFlag_of rfl rfl, onlySetsFlag_of rfl rfl⟩

/-- Settles O39: the signed conditions read the extension as the immediate itself, the unsigned ones as the immediate
modulo 2^32. -/
theorem immediateCompares : Obligations.ImmediateCompares := by
  intro a k s
  refine ⟨onlySetsFlag_of rfl ?eq, onlySetsFlag_of rfl ?ne, onlySetsFlag_of rfl ?gtu, onlySetsFlag_of rfl ?geu,
    onlySetsFlag_of rfl ?ltu, onlySetsFlag_of rfl ?leu, onlySetsFlag_of rfl ?gts, onlySetsFlag_of rfl ?ges,
    onlySetsFlag_of rfl ?lts, onlySetsFlag_of rfl ?les⟩
  case eq => simp only [test_eq, eq_sext16_iff]
  case ne => simp only [test_ne, ne_eq, eq_sext16_iff]
  case gtu | geu | ltu | leu => simp only [Condition.test, ← sext16_toNat, Int.ofNat_lt, Int.ofNat_le, gt_iff_lt, ge_iff_le]
  case gts | ges | lts | les => simp only [Condition.test, sext16_toInt, gt_iff_lt, ge_iff_le]

end Sys2Proof.Machine

/-! SUPPORT. The proofs of the statements of 43_control.md: how a transfer completes outside a delay slot, with its target in
numbers, and the instructions that only go on. -/

namespace Sys2Proof.Machine

/-! ### What every transfer leaves -/

/-- SR, the other special registers, memory, the parameters and the host's side are unchanged: all but the general registers
and the sequencing fields. -/
def SameSystem (s t : State) : Prop := t.sr = s.sr ∧ SameSpecials s t ∧ SameMemory s t ∧ SameOuter s t

theorem seqJump_sameSystem (target : Word) (s : State) : SameSystem s (s.seqJump target) :=
  ⟨rfl, ⟨rfl, rfl, rfl, rfl, rfl, rfl, rfl, rfl, rfl⟩, fun _ => rfl, ⟨rfl, rfl, rfl, rfl, rfl, rfl⟩⟩

/-- The frame says nothing of the general registers, so a link written before the jump keeps it. -/
theorem setReg_sameSystem_iff (d : Reg) (v : Word) (s t : State) : SameSystem (s.setReg d v) t ↔ SameSystem s t := Iff.rfl

/-! ### Transfers outside a delay slot -/

/-- The target of an immediate transfer in integers (43_control.md R217). -/
theorem jumpTarget_eq_ofInt (n : BitVec 26) (s : State) :
    s.jumpTarget n = BitVec.ofInt 32 (s.pc.toInt + 4 * n.toInt) := by
  rw [jumpTarget_eq, BitVec.ofInt_add, BitVec.ofInt_toInt]

theorem jumpTo_next {s : State} (hdf : s.df = false) (target : Word) :
    ∃ t, jumpTo target s = .next t ∧ TransfersTo target s t ∧ SameRegs s t ∧ SameSystem s t := by
  refine ⟨s.seqJump target, ?_, ⟨rfl, rfl, rfl⟩, seqJump_reg s target, seqJump_sameSystem target s⟩
  simp [jumpTo, hdf]

/-- The link is written beside the transfer, whatever the target was read from (R211, R215). -/
theorem jumpAndLink_next {s : State} (hdf : s.df = false) (target : Word) :
    ∃ t, jumpAndLink target s = .next t ∧ TransfersTo target s t ∧ t.reg 9 = s.pc + 8#32 ∧ SameRegsBut 9 s t ∧
      SameSystem s t := by
  refine ⟨(s.setReg linkReg (s.pc + 8#32)).seqJump target, ?_, ⟨rfl, rfl, rfl⟩, setReg_reg_self s linkReg _,
    fun r hr => setReg_reg_of_ne s _ hr, (setReg_sameSystem_iff ..).1 (seqJump_sameSystem target _)⟩
  simp [jumpAndLink, hdf]

theorem branchIf_taken (target : Word) (s : State) : branchIf true target s = jumpTo target s := rfl

theorem branchIf_notTaken {s : State} (hdf : s.df = false) (target : Word) : branchIf false target s = goOn s := by
  simp [branchIf, hdf]

/-- A branch is a jump when it is taken and only goes on when it is not (R212, R213). -/
theorem branchIf_next {s : State} (hdf : s.df = false) (taken : Bool) (target : Word) :
    ∃ t, branchIf taken target s = .next t ∧ (if taken then TransfersTo target s t else GoesOn s t) ∧ SameRegs s t ∧
      SameSystem s t := by
  cases taken with
  | true => exact jumpTo_next hdf target
  | false =>
    obtain ⟨t, ht, hregs, hsr, hspecials, hmem, houter, hgoes⟩ := goOn_next s
    exact ⟨t, (branchIf_notTaken hdf target).trans ht, hgoes, hregs, hsr, hspecials, hmem, houter⟩

/-! ### The statements about control -/

/-- Settles O28: the target is read from the state before the link is written, so `l.jalr r9` jumps to the old r9. -/
theorem registerJumps : Obligations.RegisterJumps :=
  fun b s hdf => ⟨jumpTo_next hdf (s.reg b), jumpAndLink_next hdf (s.reg b)⟩

/-- Settles O29: the meaning of each of the four is to go on. -/
theorem nopAndSyncsOnlyGoOn : Obligations.NopAndSyncsOnlyGoOn :=
  fun s => ⟨fun _ => goOn_next s, goOn_next s, goOn_next s, goOn_next s⟩

/-- Settles O26: the machine's target is pc plus four times the offset, modulo 2^32. -/
theorem immediateJumps : Obligations.ImmediateJumps := by
  intro n s hdf
  rw [← jumpTarget_eq_ofInt]
  exact ⟨jumpTo_next hdf _, jumpAndLink_next hdf _⟩

/-- Settles O27: `l.bf` branches by F, and `l.bnf` by its negation, which exchanges the two outcomes. -/
theorem conditionalBranches : Obligations.ConditionalBranches := by
  intro n s hdf
  rw [← jumpTarget_eq_ofInt]
  refine ⟨branchIf_next hdf s.flag _, ?bnf⟩
  case bnf =>
    obtain ⟨t, ht, houtcome, hframe⟩ := branchIf_next hdf (!s.flag) (s.jumpTarget n)
    exact ⟨t, ht, by simpa [State.flag] using houtcome, hframe⟩

end Sys2Proof.Machine

/-! SUPPORT. The proofs of the statements of 44_load_store.md: the bytes of RAM a load reads and a store writes, in numbers,
the exceptions of an access in their order, and the round trip of a store and a load of its width. -/

namespace Sys2Proof.Machine

/-! ### Loads from RAM -/

/-- Big-endian order in numbers: what stands first is the more significant part (20_memory.md R63). -/
theorem append_toNat {m n : Nat} (hi : BitVec m) (lo : BitVec n) : (hi ++ lo).toNat = hi.toNat * 2 ^ n + lo.toNat := by
  rw [BitVec.toNat_append, ← Nat.shiftLeft_add_eq_or_of_lt lo.isLt, Nat.shiftLeft_eq]

/-- As a signed integer the first part carries the sign. -/
theorem append_toInt (hi lo : Byte) : (hi ++ lo : Half).toInt = hi.toInt * 256 + lo.toNat := by
  rw [BitVec.toInt_append, Int.mul_comm]
  rfl

theorem zext8_toNat (b : Byte) : (zext8 b).toNat = b.toNat := BitVec.toNat_setWidth_of_le (by decide)

theorem zext16_toNat (h : Half) : (zext16 h).toNat = h.toNat := BitVec.toNat_setWidth_of_le (by decide)

@[simp] theorem lowByte_zext8 (b : Byte) : lowByte (zext8 b) = b := by
  rw [lowByte, zext8, BitVec.zeroExtend, BitVec.extractLsb'_setWidth_of_le (by decide), BitVec.extractLsb'_eq_self]

@[simp] theorem lowHalf_zext16 (h : Half) : lowHalf (zext16 h) = h := by
  rw [lowHalf, zext16, BitVec.zeroExtend, BitVec.extractLsb'_setWidth_of_le (by decide), BitVec.extractLsb'_eq_self]

theorem readValue_word_toNat (m : Memory) (a : Nat) :
    (m.readValue a .word).toNat = (m.read a).toNat * 16777216 + (m.read (a + 1)).toNat * 65536 +
      (m.read (a + 2)).toNat * 256 + (m.read (a + 3)).toNat := by
  simp only [Memory.readValue, append_toNat]
  omega

/-- The low half of what a halfword read gives is the two bytes, so that every extension of it is one of them. -/
theorem lowHalf_readValue (m : Memory) (a : Nat) : lowHalf (m.readValue a .half) = m.read a ++ m.read (a + 1) :=
  lowHalf_zext16 _

theorem lowByte_readValue (m : Memory) (a : Nat) : lowByte (m.readValue a .byte) = m.read a := lowByte_zext8 _

/-- Settles O41: each load writes back the extension of the value that RAM holds, which is its bytes in big-endian
order. -/
theorem loadsFromRam : Obligations.LoadsFromRam := by
  intro d a i pa s
  refine ⟨fun h => ⟨onlyWrites_of (loadWith_ram h) ?lwz, onlyWrites_of (loadWith_ram h) ?lws⟩,
    fun h => ⟨onlyWrites_of (loadWith_ram h) ?lbz, onlyWrites_of (loadWith_ram h) ?lbs⟩,
    fun h => ⟨onlyWrites_of (loadWith_ram h) ?lhz, onlyWrites_of (loadWith_ram h) ?lhs⟩⟩
  case lwz | lws => exact readValue_word_toNat s.mem pa.toNat
  case lbz => rw [lowByte_readValue, zext8_toNat]
  case lbs => rw [lowByte_readValue, sext8_toInt]
  case lhz =>
    rw [lowHalf_readValue, zext16_toNat, append_toNat]
    rfl
  case lhs => rw [lowHalf_readValue, sext16_toInt, append_toInt]

/-! ### Stores to RAM -/

theorem extractByte_eq_ofNat (v : Word) (n : Nat) : v.extractLsb' n 8 = BitVec.ofNat 8 (v.toNat / 2 ^ n) := by
  rw [← Nat.shiftRight_eq_div_pow]
  rfl

theorem storedBytes_word (v : Word) :
    storedBytes v .word = [BitVec.ofNat 8 (v.toNat / 16777216), BitVec.ofNat 8 (v.toNat / 65536),
      BitVec.ofNat 8 (v.toNat / 256), BitVec.ofNat 8 v.toNat] := by
  simp [storedBytes, extractByte_eq_ofNat]

theorem storedBytes_half (v : Word) :
    storedBytes v .half = [BitVec.ofNat 8 (v.toNat / 256), BitVec.ofNat 8 v.toNat] := by
  simp [storedBytes, extractByte_eq_ofNat]

theorem storedBytes_byte (v : Word) : storedBytes v .byte = [BitVec.ofNat 8 v.toNat] := by
  simp [storedBytes, extractByte_eq_ofNat]

/-- A store that reaches RAM stores the bytes of its register and nothing else, and goes on (44_load_store.md R236 to
R238). -/
theorem storeWith_ram_next {w : Width} {a b : Reg} {i : BitVec 16} {pa : Word} {s : State} (hwf : s.mem.wf = true)
    (h : ReachesRam true (s.effectiveAddress a i) w pa s) :
    ∃ t, storeWith w a b i s = .next t ∧ OnlyStores pa.toNat (storedBytes (s.reg b) w) s t := by
  obtain ⟨t, hnext, hregs, hsr, hspecials, hmem, houter, hgoes⟩ :=
    goOn_next { s with mem := s.mem.writeValue pa.toNat w (s.reg b) }
  refine ⟨t, (storeWith_ram h).trans hnext, fun k hk => ?inside, fun x hx => ?outside, hregs, hsr, hspecials, houter,
    hgoes⟩
  case inside =>
    rw [hmem, Memory.writeValue, read_writeBytes hwf, dif_pos (by omega)]
    simp only [Nat.add_sub_cancel_left]
  case outside =>
    rw [hmem]
    exact read_writeValue_of_outside hwf _ (by simpa only [storedBytes_length] using hx)

/-- Settles O42: the stores of the three widths, with the bytes of rB as quotients. -/
theorem storesToRam : Obligations.StoresToRam := by
  intro a b i pa s hwf
  rw [← storedBytes_word, ← storedBytes_half, ← storedBytes_byte]
  exact ⟨storeWith_ram_next hwf, storeWith_ram_next hwf, storeWith_ram_next hwf⟩

/-! ### The exceptions of an access -/

/-- What an access raises before it reaches RAM or the peripheral: each exception only when the checks of those before it
passed (44_load_store.md R240). -/
inductive AccessRaises (isWrite : Bool) (va : Word) (w : Width) (s : State) : Cause → Prop
  /-- The address is no multiple of the width (20_memory.md R65). -/
  | misaligned (halign : va.toNat % widthBytes w ≠ 0) : AccessRaises isWrite va w s (.alignment va)
  /-- Translation raises a miss or a page fault (R72, R74). -/
  | untranslated {c : Cause} (halign : va.toNat % widthBytes w = 0) (hc : translate .data isWrite va s = .error c) :
      AccessRaises isWrite va w s c
  /-- Nothing claims the physical address (R69). -/
  | unmapped {pa : Word} (halign : va.toNat % widthBytes w = 0) (hpa : translate .data isWrite va s = .ok pa)
      (hregion : regionOf s.cfg pa w = .unmapped) : AccessRaises isWrite va w s (.busError va)

theorem physWrite_unmapped {pa : Word} {w : Width} {v : Word} {s : State} (h : regionOf s.cfg pa w = .unmapped) :
    physWrite pa w v s = (false, s) := by
  simp [physWrite, h]

theorem memRead_raises {va : Word} {w : Width} {s : State} {c : Cause} (h : AccessRaises false va w s c) :
    memRead va w s = .exc c s := by
  cases h with
  | misaligned halign => simp [memRead, readVia, misaligned_iff, halign]
  | untranslated halign hc => simp [memRead, readVia, misaligned_false halign, hc]
  | unmapped halign hpa hregion => simp [memRead, readVia, misaligned_false halign, hpa, physRead_unmapped hregion]

theorem memWrite_raises {va : Word} {w : Width} {v : Word} {s : State} {c : Cause} (h : AccessRaises true va w s c) :
    memWrite va w v s = .exc c s := by
  cases h with
  | misaligned halign => simp [memWrite, misaligned_iff, halign]
  | untranslated halign hc => simp [memWrite, misaligned_false halign, hc]
  | unmapped halign hpa hregion => simp [memWrite, misaligned_false halign, hpa, physWrite_unmapped hregion]

/-- Every store is `storeWith` of its access. -/
theorem exec_eq_storeWith {i : Instr} {x : DataAccess} (h : dataAccess i = some x) (hstore : x.isWrite = true) :
    ∃ b, ∀ s, exec i s = storeWith x.width x.base b x.offset s := by
  cases i with
  | sw a b | sh a b | sb a b => cases h; exact ⟨b, fun _ => rfl⟩
  | lwz | lws | lbz | lbs | lhz | lhs => cases h; cases hstore
  | _ => cases h

/-- A load or store whose access raises an exception enters it from the state as it was, its own address saved
(60_exceptions.md R272). -/
theorem exec_raises {i : Instr} {x : DataAccess} {s : State} {c : Cause} (hx : dataAccess i = some x)
    (h : AccessRaises x.isWrite (s.effectiveAddress x.base x.offset) x.width s c) : exec i s = raise c s := by
  cases hw : x.isWrite <;> rw [hw] at h
  case false =>
    obtain ⟨d, f, hexec, -⟩ := exec_load hx hw
    rw [hexec, loadWith, memRead_raises h]
  case true =>
    obtain ⟨b, hexec⟩ := exec_eq_storeWith hx hw
    rw [hexec, storeWith, memWrite_raises h]

/-- Settles O43: each premise is one way an access raises, and what it raises is entered. -/
theorem accessExceptions : Obligations.AccessExceptions := by
  intro i x s va hx hva
  rw [← effectiveAddress_eq] at hva
  subst hva
  have henters {c : Cause} (h : AccessRaises x.isWrite (s.effectiveAddress x.base x.offset) x.width s c) :
      ∃ t, exec i s = .next t ∧ Enters c s.pc s t ∧ t.device = s.device :=
    exec_raises hx h ▸ raise_next c s
  refine ⟨fun halign => henters (.misaligned halign), fun c halign hc => ?untranslated,
    fun pa halign hpa hregion => henters (.unmapped halign hpa hregion)⟩
  case untranslated =>
    obtain ⟨t, hnext, hent, hdev⟩ := henters (.untranslated halign hc)
    exact ⟨t, hnext, hent, hdev, translate_error hc⟩

/-! ### A store, then a load -/

/-- Neither the bytes of memory nor the sequencing decide whether an access reaches RAM. -/
theorem reachesRam_afterStore (m : Memory) {isWrite : Bool} {va : Word} {w : Width} {pa : Word} {s : State} :
    ReachesRam isWrite va w pa { s with mem := m }.seqNext ↔ ReachesRam isWrite va w pa s := Iff.rfl

/-- A load after a store of its width, both at one RAM address, writes back the extension of the bits stored
(44_load_store.md R239). -/
theorem loadWith_after_storeWith {w : Width} {a b : Reg} {i : BitVec 16} {pa : Word} {s : State} (hwf : s.mem.wf = true)
    (hstore : ReachesRam true (s.effectiveAddress a i) w pa s)
    (hload : ReachesRam false (s.effectiveAddress a i) w pa s) :
    ∃ t, storeWith w a b i s = .next t ∧
      ∀ d f, ∃ u, loadWith w f d a i t = .next u ∧ u.reg d = f (lowBits (s.reg b) w) := by
  refine ⟨_, storeWith_ram hstore, fun d f => ?_⟩
  rw [← readValue_writeValue hwf pa.toNat]
  obtain ⟨u, hnext, hd, -⟩ := writeBack_next d _ _
  exact ⟨u, (loadWith_ram ((reachesRam_afterStore _).2 hload)).trans hnext, hd⟩

/-- Settles O45: for each width the loads extend the low bits of rB that were stored. -/
theorem storeThenLoad : Obligations.StoreThenLoad := by
  intro a b d i pa s hwf
  refine ⟨fun hstore hload => ?word, fun hstore hload => ?half, fun hstore hload => ?byte⟩ <;>
    obtain ⟨t, ht, hloads⟩ := loadWith_after_storeWith (b := b) hwf hstore hload
  case word =>
    obtain ⟨u, hu, hz⟩ := hloads d id
    exact ⟨t, u, ht, hu, hz⟩
  case half =>
    obtain ⟨u, hu, hz⟩ := hloads d fun v => zext16 (lowHalf v)
    obtain ⟨v, hv, hs⟩ := hloads d fun v => sext16 (lowHalf v)
    refine ⟨t, u, v, ht, hu, hv, ?_, ?_⟩
    · rw [hz, lowBits, lowHalf_zext16, zext16_lowHalf_toNat]
    · rw [hs, lowBits, lowHalf_zext16, sext16_lowHalf_toInt]
  case byte =>
    obtain ⟨u, hu, hz⟩ := hloads d fun v => zext8 (lowByte v)
    obtain ⟨v, hv, hs⟩ := hloads d fun v => sext8 (lowByte v)
    refine ⟨t, u, v, ht, hu, hv, ?_, ?_⟩
    · rw [hz, lowBits, lowByte_zext8, zext8_lowByte_toNat]
    · rw [hs, lowBits, lowByte_zext8, sext8_lowByte_toInt]

end Sys2Proof.Machine

/-! SUPPORT. The proofs of the statements of 45_system.md: the system call and the trap, and the special registers of the
table of 10_state.md R46, each read and written whole. -/

namespace Sys2Proof.Machine

/-! ### The system call and the trap -/

/-- Outside a delay slot `l.sys` saves the address after it, not its own (45_system.md R252, 60_exceptions.md R272). -/
theorem exec_sys {k : BitVec 16} {s : State} (hdf : s.df = false) :
    exec (.sys k) s = .next (dispatch .syscall (s.pc + 4#32) s) := by
  change (if s.df then _ else _) = _
  rw [hdf]
  rfl

/-- Settles O14: both dispatch, `l.sys` with the address after it, `l.trap` as any instruction that raises an exception. -/
theorem systemCallAndTrapEnter : Obligations.SystemCallAndTrapEnter :=
  fun _ s => ⟨fun hdf => ⟨_, exec_sys hdf, dispatch_enters .syscall (s.pc + 4#32) s, dispatch_device ..⟩,
    raise_next .trap s⟩

/-! ### Reads -/

/-- `l.mfspr` of a register whose read draws nothing only writes that value back. -/
theorem exec_mfspr_reads {d a : Reg} {k : BitVec 16} {s : State} {n : Nat} {v : Word} (h : SystemAllowed s)
    (hn : sprNumber a k s = n) (hread : sprRead (decodeSpr (BitVec.ofNat 16 n)) s = (v, s)) :
    ∃ t, exec (.mfspr d a k) s = .next t ∧ OnlyWrites d v s t := by
  rw [exec_mfspr h, sprAddress_eq hn, hread]
  exact writeBack_next d v s

/-- Each plain register of the table reads as the field the table names. -/
theorem sprRead_plain (s : State) :
    ∀ entry ∈ plainSprs s, sprRead (decodeSpr (BitVec.ofNat 16 entry.1)) s = (entry.2, s) := by
  simp only [plainSprs, List.forall_mem_cons]
  exact ⟨rfl, rfl, rfl, rfl, rfl, rfl, rfl, rfl, rfl, rfl, rfl, rfl, rfl, List.forall_mem_nil _⟩

theorem sprRead_tlbmr {side : Side} {set : Nat} {v : Word} {s : State} (h : set < 64)
    (hv : (s.mmu side).mr[set]? = some v) : sprRead (.tlbmr side ⟨set, by omega⟩) s = (v, s) := by
  obtain ⟨_, rfl⟩ := Vector.getElem?_eq_some_iff.1 hv
  exact if_pos h

theorem sprRead_tlbtr {side : Side} {set : Nat} {v : Word} {s : State} (h : set < 64)
    (hv : (s.mmu side).tr[set]? = some v) : sprRead (.tlbtr side ⟨set, by omega⟩) s = (v, s) := by
  obtain ⟨_, rfl⟩ := Vector.getElem?_eq_some_iff.1 hv
  exact if_pos h

/-- Settles O47: the address names the register, and its read gives the value stored and leaves the state. -/
theorem specialRegisterReads : Obligations.SpecialRegisterReads := by
  intro d a k s hallowed
  refine ⟨fun n v hv hn => exec_mfspr_reads hallowed hn (sprRead_plain s (n, v) hv), fun set hset v hv hn => ?dataMatch,
    fun set hset v hv hn => ?dataTranslate, fun set hset v hv hn => ?insnMatch,
    fun set hset v hv hn => ?insnTranslate⟩
  all_goals
    obtain ⟨hdmr, hdtr, himr, hitr⟩ := decodeSpr_usedSets set hset
    refine exec_mfspr_reads hallowed hn ?_
  case dataMatch => rw [hdmr]; exact sprRead_tlbmr hset hv
  case dataTranslate => rw [hdtr]; exact sprRead_tlbtr hset hv
  case insnMatch => rw [himr]; exact sprRead_tlbmr hset hv
  case insnTranslate => rw [hitr]; exact sprRead_tlbtr hset hv

/-! ### Writes -/

/-- No write of a special register touches the sequencing, so `l.mtspr` goes on as from the state before. -/
theorem goOn_sprWrite (r : Spr) (v : Word) (s : State) : goOn (sprWrite r v s) = .next (thenNext s (sprWrite r v s)) := by
  obtain ⟨-, hpc, hdf, hdnpc, -⟩ := sprWrite_frame r v s
  rw [goOn, State.seqNext, thenNext, hpc, hdf, hdnpc]

/-- `l.mtspr` of an address writes the register it names, and goes on. -/
theorem exec_mtspr_writes {a b : Reg} {k : BitVec 16} {s : State} {n : Nat} (r : Spr) (h : SystemAllowed s)
    (hr : decodeSpr (BitVec.ofNat 16 n) = r) (hn : sprNumber a k s = n) :
    exec (.mtspr a b k) s = .next (thenNext s (sprWrite r (s.reg b) s)) := by
  rw [exec_mtspr h, sprAddress_eq hn, hr, goOn_sprWrite]

theorem sprWrite_picsr_stored {s : State} (v : Word) (h : s.cfg.picsrWrite = .store) :
    sprWrite .picsr v s = { s with picsr := v } := by
  simp only [sprWrite, h]

/-- Settles O49: each address names its register, and the write of that register is the update stated. -/
theorem specialRegisterWrites : Obligations.SpecialRegisterWrites := by
  intro a b k s hallowed
  refine ⟨exec_mtspr_writes .sr hallowed rfl, exec_mtspr_writes .epcr0 hallowed rfl,
    exec_mtspr_writes .eear0 hallowed rfl, exec_mtspr_writes .esr0 hallowed rfl,
    exec_mtspr_writes (.mmucr .data) hallowed rfl, exec_mtspr_writes (.mmucr .insn) hallowed rfl,
    fun set => ?dataMatch, fun set => ?dataTranslate, fun set => ?insnMatch, fun set => ?insnTranslate,
    exec_mtspr_writes .picmr hallowed rfl, fun hn hstore => ?picsr, exec_mtspr_writes .ttmr hallowed rfl,
    exec_mtspr_writes .ttcr hallowed rfl⟩
  case picsr => rw [exec_mtspr_writes .picsr hallowed rfl hn, sprWrite_picsr_stored _ hstore]
  all_goals obtain ⟨hdmr, hdtr, himr, hitr⟩ := decodeSpr_usedSets set set.isLt
  case dataMatch => exact exec_mtspr_writes _ hallowed hdmr
  case dataTranslate => exact exec_mtspr_writes _ hallowed hdtr
  case insnMatch => exact exec_mtspr_writes _ hallowed himr
  case insnTranslate => exact exec_mtspr_writes _ hallowed hitr

end Sys2Proof.Machine

/-! SUPPORT. The proofs of the statements of 60_exceptions.md: what an instruction and a cycle can do to the special registers
and to the Run call, the tick timer, taking an exception and returning from one, user mode, and the Run call. -/

namespace Sys2Proof.Machine

/-! ### The single bits that SR and TTMR are written with -/

theorem getLsbD_of_eq_twoPow {v : Word} {n : Nat} (hn : n < 32) (h : v = BitVec.twoPow 32 n) (k : Nat) :
    v.getLsbD k = decide (k = n) := by
  rw [h, BitVec.getLsbD_twoPow, decide_eq_true hn, Bool.true_and]
  exact decide_eq_decide.2 eq_comm

theorem srFO_getLsbD (k : Nat) : srFO.getLsbD k = decide (k = 15) :=
  getLsbD_of_eq_twoPow (by decide) (by decide) k

theorem srDSX_getLsbD (k : Nat) : srDSX.getLsbD k = decide (k = 13) :=
  getLsbD_of_eq_twoPow (by decide) (by decide) k

theorem ttmrIP_getLsbD (k : Nat) : ttmrIP.getLsbD k = decide (k = 28) :=
  getLsbD_of_eq_twoPow (by decide) (by decide) k

/-- A write of SR leaves every bit but FO as written (10_state.md R26). -/
theorem or_srFO_getLsbD (v : Word) {k : Nat} (h : k ≠ 15) : (v ||| srFO).getLsbD k = v.getLsbD k := by
  simp [srFO_getLsbD, h]

/-! ### What an instruction does to the special registers -/

/-- The first address of the SPR group of a side (10_state.md R46). -/
def Side.group : Side → Nat
  | .data => 0x0800
  | .insn => 0x1000

/-- The address of a special register (10_state.md R46); an address outside the table has no one number. -/
def Spr.number : Spr → Option Nat
  | .vr => some 0x0000
  | .upr => some 0x0001
  | .cpucfgr => some 0x0002
  | .dmmucfgr => some 0x0003
  | .immucfgr => some 0x0004
  | .sr => some 0x0011
  | .epcr0 => some 0x0020
  | .eear0 => some 0x0030
  | .esr0 => some 0x0040
  | .mmucr side => some side.group
  | .tlbmr side set => some (side.group + 0x200 + set.val)
  | .tlbtr side set => some (side.group + 0x280 + set.val)
  | .picmr => some 0x4800
  | .picsr => some 0x4802
  | .ttmr => some 0x5000
  | .ttcr => some 0x5001
  | .unnamed => none

theorem systemSpr_number {index n : Nat} (h : (systemSpr index).number = some n) : n = index := by
  unfold systemSpr at h
  split at h <;> simp only [Spr.number, Option.some.injEq, reduceCtorEq] at h <;> exact h.symm

theorem mmuSpr_number {side : Side} {index n : Nat} (h : (mmuSpr side index).number = some n) :
    n = side.group + index := by
  unfold mmuSpr at h
  split_ifs at h <;> simp only [Spr.number, Option.some.injEq, reduceCtorEq] at h <;> omega

/-- Each register of the table has one address (10_state.md R46). -/
theorem decodeSpr_number {a : BitVec 16} {n : Nat} (h : (decodeSpr a).number = some n) : a.toNat = n := by
  rw [decodeSpr_eq] at h
  split at h
  case h_1 => have := systemSpr_number h; omega
  case h_2 => have : n = 0x0800 + _ := mmuSpr_number h; omega
  case h_3 => have : n = 0x1000 + _ := mmuSpr_number h; omega
  case h_4 => split_ifs at h <;> cases h <;> omega
  case h_5 => split_ifs at h <;> cases h <;> omega
  case h_6 => cases h

/-- The number of `l.mtspr` is that of the register it writes. -/
theorem sprNumber_eq {a : Reg} {k : BitVec 16} {s : State} {r : Spr} {n : Nat}
    (h : decodeSpr (s.sprAddress a k) = r) (hn : r.number = some n) : sprNumber a k s = n := by
  rw [← sprAddress_toNat]
  exact decodeSpr_number (h ▸ hn)

/-- What an instruction that gives a next state did to the special registers, SR and the Run call. -/
inductive SystemEffect (i : Instr) (s t : State) : Prop
  /-- It left them, but for F. -/
  | completes (hspecials : SameSpecials s t) (hsr : ∀ k, k ≠ 9 → t.sr.getLsbD k = s.sr.getLsbD k)
      (hrun : t.run = s.run) (hcalls : t.calls = s.calls)
  /-- It wrote one of them. -/
  | mtspr (a b : Reg) (k : BitVec 16) (hi : i = .mtspr a b k) (hd : s.systemDenied = false)
      (ht : t = (sprWrite (decodeSpr (s.sprAddress a k)) (s.reg b) s).seqNext)
  /-- It took an exception, with its own address saved if the kind carries a faulting address. -/
  | enters (c : Cause) (savedPC : Word) (henters : Enters c savedPC s t) (hpc : savedPC = s.pc ∨ c.address = none)
  /-- It returned from an exception. -/
  | rfe (hi : i = .rfe) (hd : s.systemDenied = false) (ht : t = returnFromException s)

theorem exec_systemEffect {i : Instr} {s t : State} (h : exec i s = .next t) : SystemEffect i s t := by
  cases exec_effect h with
  | writes | goesOn | stores | jumps | links =>
    exact .completes ⟨rfl, rfl, rfl, rfl, rfl, rfl, rfl, rfl, rfl⟩ (fun _ _ => rfl) rfl rfl
  | flag f =>
    exact .completes ⟨rfl, rfl, rfl, rfl, rfl, rfl, rfl, rfl, rfl⟩ (fun _ hk => setFlag_otherBits s f hk) rfl rfl
  | special a b k hi hd => exact .mtspr a b k hi hd rfl
  | raises c dev => exact .enters c s.pc (dispatch_enters c s.pc { s with device := dev }) (.inl rfl)
  | calls => exact .enters .syscall _ (dispatch_enters ..) (.inr rfl)
  | returns hi hd => exact .rfe hi hd rfl

/-! ### What the entry of an exception leaves in each field -/

theorem Enters.sr {c : Cause} {p : Word} {s t : State} (h : Enters c p s t) : t.sr = 0x00008001#32 := by
  obtain ⟨-, hsr, -⟩ := h
  exact hsr

/-- EEAR0 takes the faulting address of a kind that carries one, and is left by the others (60_exceptions.md R273). -/
theorem Enters.eear0 {c : Cause} {p : Word} {s t : State} (h : Enters c p s t) :
    (∃ va, c.address = some va ∧ t.eear0 = va) ∨ (c.address = none ∧ t.eear0 = s.eear0) := by
  obtain ⟨-, -, -, -, heear, -⟩ := h
  cases hc : c.address with
  | none => rw [hc] at heear; exact .inr ⟨rfl, heear⟩
  | some va => rw [hc] at heear; exact .inl ⟨va, rfl, heear⟩

theorem Enters.ttcr {c : Cause} {p : Word} {s t : State} (h : Enters c p s t) : t.ttcr = s.ttcr := by
  obtain ⟨-, -, -, -, -, -, -, -, -, -, httcr, -⟩ := h
  exact httcr

theorem Enters.calls {c : Cause} {p : Word} {s t : State} (h : Enters c p s t) : t.calls = s.calls := by
  obtain ⟨-, -, -, -, -, -, -, -, -, -, -, -, -, -, -, -, -, hcalls, -⟩ := h
  exact hcalls

/-- The entry of an exception is in supervisor mode (60_exceptions.md R271). -/
theorem Enters.supervisor {c : Cause} {p : Word} {s t : State} (h : Enters c p s t) : t.sr.getLsbD 0 = true := by
  rw [h.sr]; decide

/-! ### Precise exceptions and EEAR0 -/

/-- Settles O13: `dispatch` does all and only what `Enters` says, and meets no peripheral. -/
theorem dispatchEntersTheHandler : Obligations.DispatchEntersTheHandler :=
  fun c savedPC s => ⟨dispatch_enters c savedPC s, dispatch_device c savedPC s⟩

/-- Settles O17: an entry writes EEAR0 only with its address, and `l.mtspr` only as the register it names. -/
theorem faultAddressWrittenOnlyByFaults : Obligations.FaultAddressWrittenOnlyByFaults := by
  intro i s t h
  cases exec_systemEffect h with
  | completes hspecials =>
    obtain ⟨-, heear, -⟩ := hspecials
    exact .inl heear
  | mtspr a b k hi _ ht =>
    subst ht
    by_cases hr : decodeSpr (s.sprAddress a k) = .eear0
    · exact .inr (.inr ⟨a, b, k, hi, sprNumber_eq hr rfl, by rw [hr]; rfl⟩)
    · obtain ⟨-, -, -, -, -, -, -, -, -, -, -, -, heear, -⟩ :=
        sprWrite_frame (decodeSpr (s.sprAddress a k)) (s.reg b) s
      exact .inl (heear hr)
  | enters c savedPC henters hpc =>
    obtain ⟨va, hva, heear⟩ | ⟨_, heear⟩ := henters.eear0
    · obtain rfl | hnone := hpc
      · exact .inr (.inl ⟨c, va, hva, heear, henters⟩)
      · cases hnone.symm.trans hva
    · exact .inl heear
  | rfe _ _ ht => subst ht; exact .inl rfl

/-- Settles O19: an instruction completes, writes a special register, enters an exception, or returns from one. -/
theorem exceptionsArePrecise : Obligations.ExceptionsArePrecise := by
  intro i s t h
  cases exec_systemEffect h with
  | completes hspecials =>
    obtain ⟨hepcr, heear, hesr, -⟩ := hspecials
    exact .inr (.inl ⟨hepcr, hesr, heear⟩)
  | mtspr a b k hi => exact .inr (.inr ⟨a, b, k, hi⟩)
  | enters c savedPC henters => exact .inl ⟨c, savedPC, henters⟩
  | rfe _ _ ht => subst ht; exact .inr (.inl ⟨rfl, rfl, rfl⟩)

/-! ### The return that undoes a dispatch -/

/-- The SR that a dispatch saves: SR, with DSX set in a delay slot (60_exceptions.md R271, R279). -/
theorem dispatch_esr0_getLsbD (c : Cause) (p : Word) (s : State) (k : Nat) :
    (dispatch c p s).esr0.getLsbD k = (s.sr.getLsbD k || (s.df && decide (k = 13))) := by
  rw [dispatch_esr0]
  cases s.df
  · simp
  · simp [srDSX_getLsbD]

/-- Settles O16: the handler runs in supervisor mode outside a delay slot, so `l.rfe` returns to what was saved; the FO
it forces was set. -/
theorem returnUndoesDispatch : Obligations.ReturnUndoesDispatch := by
  intro c savedPC s hfo
  refine ⟨returnFromException (dispatch c savedPC s), ?_, rfl, fun _ => rfl, fun _ => rfl, rfl, fun k => ?_⟩
  · rw [exec_rfe_allowed (.inl (dispatch_sm c savedPC s))]
    rfl
  · by_cases hk : k = 15
    · rw [hk, returnFromException_fixedOne, hfo, Bool.true_or]
    · rw [returnFromException_otherBits _ hk, dispatch_esr0_getLsbD]

/-! ### User mode -/

theorem systemDenied_of_user {s : State} (huser : s.sr.getLsbD 0 = false) (hrefuse : s.cfg.userSystemAccess = .refuse) :
    s.systemDenied = true := by
  rw [State.systemDenied, State.sm, huser, hrefuse]
  rfl

/-- Settles O53: each of the three looks at the mode before anything else. -/
theorem userSystemAccessRefused : Obligations.UserSystemAccessRefused := by
  intro d a b k s huser hrefuse
  have hdenied := systemDenied_of_user huser hrefuse
  exact ⟨if_pos hdenied, if_pos hdenied, if_pos hdenied⟩

/-- Settles O54: of what an instruction can do to the system state, `l.mtspr` and `l.rfe` are refused. -/
theorem userModeKeepsSystemState : Obligations.UserModeKeepsSystemState := by
  intro i s t huser hrefuse h
  have hdenied := systemDenied_of_user huser hrefuse
  cases exec_systemEffect h with
  | completes hspecials hsr hrun => exact .inr ⟨hspecials, hsr, hrun⟩
  | enters c savedPC henters => exact .inl ⟨c, savedPC, henters⟩
  | mtspr _ _ _ _ hd | rfe _ hd => cases hdenied.symm.trans hd

/-- An instruction leaves supervisor mode only by a write of SR with SM 0 (60_exceptions.md R295). -/
theorem exec_leaves_supervisor {i : Instr} {s t : State} (hsm : s.sr.getLsbD 0 = true) (h : exec i s = .next t)
    (huser : t.sr.getLsbD 0 = false) :
    (i = .rfe ∧ s.esr0.getLsbD 0 = false) ∨
      ∃ a b k, i = .mtspr a b k ∧ sprNumber a k s = 0x0011 ∧ (s.reg b).getLsbD 0 = false := by
  cases exec_systemEffect h with
  | completes _ hsr => cases huser.symm.trans ((hsr 0 (by decide)).trans hsm)
  | mtspr a b k hi _ ht =>
    subst ht
    by_cases hr : decodeSpr (s.sprAddress a k) = .sr
    · rw [hr] at huser
      exact .inr ⟨a, b, k, hi, sprNumber_eq hr rfl, (or_srFO_getLsbD (s.reg b) (by decide)).symm.trans huser⟩
    · obtain ⟨-, -, -, -, -, -, -, -, -, -, -, hsr, -⟩ :=
        sprWrite_frame (decodeSpr (s.sprAddress a k)) (s.reg b) s
      rw [seqNext_sr, hsr hr, hsm] at huser
      cases huser
  | enters _ _ henters => cases huser.symm.trans henters.supervisor
  | rfe hi _ ht =>
    subst ht
    exact .inl ⟨hi, (returnFromException_otherBits s (by decide)).symm.trans huser⟩

/-- A call of the host leaves supervisor mode only as SetSpReg of SR with SM 0 (R295). -/
theorem hostCall_leaves_supervisor {c : HostCall} {s t : State} (hsm : s.sr.getLsbD 0 = true)
    (h : hostCall c s = .next t) (huser : t.sr.getLsbD 0 = false) :
    ∃ v : Word, c = .setSpr 0x0011#16 v ∧ v.getLsbD 0 = false := by
  obtain hsr | hsr | ⟨a, v, rfl, ha, hsr⟩ := hostCall_sr h <;> rw [hsr] at huser
  · cases huser.symm.trans hsm
  · cases huser
  · exact ⟨v, by rw [decodeSpr_sr ha], (or_srFO_getLsbD v (by decide)).symm.trans huser⟩

/-! ### A cycle -/

@[simp] theorem tickPhase_sr (s : State) : (tickPhase s).sr = s.sr := by rw [tickPhase_eq]
@[simp] theorem tickPhase_esr0 (s : State) : (tickPhase s).esr0 = s.esr0 := by rw [tickPhase_eq]
@[simp] theorem tickPhase_ttcr (s : State) : (tickPhase s).ttcr = s.ttcr + 1#32 := by rw [tickPhase_eq]
@[simp] theorem tickPhase_calls (s : State) : (tickPhase s).calls = s.calls := by rw [tickPhase_eq]
@[simp] theorem tickPhase_run (s : State) : (tickPhase s).run = s.run := by rw [tickPhase_eq]

theorem tickPhase_sameRegs (s : State) : SameRegs s (tickPhase s) := by
  rw [tickPhase_eq]
  exact fun _ => rfl

/-- A cycle that gives a next state enters an exception at pc, halts, or executes the instruction fetched, each from the
state after the tick phase, which the fetch changes in the record of the peripheral at most. -/
theorem cycle_next {s t : State} (h : cycle s = .next t) :
    (∃ c, Enters c s.pc (tickPhase s) t) ∨ (∃ dev, t = halt { tickPhase s with device := dev }) ∨
      ∃ w dev i, fetch (tickPhase s) = .ok w { tickPhase s with device := dev } ∧ decode w = .ok i ∧
        exec i { tickPhase s with device := dev } = .next t := by
  have hraise {c : Cause} {dev : List DeviceEvent} (h : raise c { tickPhase s with device := dev } = .next t) :
      Enters c s.pc (tickPhase s) t := by
    obtain ⟨_, hnext, henters, _⟩ := raise_after_fetch c s dev
    cases hnext.symm.trans h
    exact henters
  obtain ⟨_, hc⟩ | ⟨_, ⟨c, dev, hc⟩ | ⟨w, dev, hfetch, hc⟩⟩ := cycle_cases s <;> rw [hc] at h
  · exact .inl ⟨.tick, hraise (dev := (tickPhase s).device) h⟩
  · exact .inl ⟨c, hraise h⟩
  · obtain ⟨_, ht⟩ | ⟨_, _, hillegal⟩ | ⟨_, i, hdecode, hexec⟩ := runWord_cases h
    · exact .inr (.inl ⟨dev, ht⟩)
    · exact .inl ⟨.illegal, hraise hillegal⟩
    · exact .inr (.inr ⟨w, dev, i, hfetch, hdecode, hexec⟩)

/-- Settles O55: the entry of an exception sets SM and the halt word leaves SR, so a cycle that leaves supervisor mode
executes an instruction. -/
theorem supervisorModeIsLeftOnlyBySrWrites : Obligations.SupervisorModeIsLeftOnlyBySrWrites := by
  refine ⟨fun i s t => exec_leaves_supervisor, fun c s t => hostCall_leaves_supervisor, fun s t hsm h huser => ?_⟩
  obtain ⟨c, henters⟩ | ⟨dev, rfl⟩ | ⟨w, dev, i, hfetch, hdecode, hexec⟩ := cycle_next h
  · cases huser.symm.trans henters.supervisor
  · rw [halt_sr, tickPhase_sr, hsm] at huser
    cases huser
  · exact ⟨w, _, i, hfetch, hdecode, hexec, tickPhase_sr s, tickPhase_esr0 s, tickPhase_sameRegs s⟩

/-! ### The tick timer -/

/-- An instruction leaves the count, or is an `l.mtspr` of it (60_exceptions.md R286). -/
theorem exec_ttcr {i : Instr} {s t : State} (h : exec i s = .next t) :
    t.ttcr = s.ttcr ∨ ∃ a b k, i = .mtspr a b k ∧ sprNumber a k s = 0x5001 ∧ t.ttcr = s.reg b := by
  cases exec_systemEffect h with
  | completes hspecials =>
    obtain ⟨-, -, -, -, httcr, -⟩ := hspecials
    exact .inl httcr
  | mtspr a b k hi _ ht =>
    subst ht
    by_cases hr : decodeSpr (s.sprAddress a k) = .ttcr
    · exact .inr ⟨a, b, k, hi, sprNumber_eq hr rfl, by rw [hr]; rfl⟩
    · obtain ⟨-, -, -, -, -, -, -, -, -, -, -, -, -, httcr⟩ :=
        sprWrite_frame (decodeSpr (s.sprAddress a k)) (s.reg b) s
      exact .inl (httcr hr)
  | enters _ _ henters => exact .inl henters.ttcr
  | rfe _ _ ht => subst ht; exact .inl rfl

/-- Settles O9: the tick phase counts, and what follows it in the cycle leaves the count but for an `l.mtspr` of it. -/
theorem everyCycleCounts : Obligations.EveryCycleCounts := by
  intro s t h
  obtain ⟨c, henters⟩ | ⟨dev, rfl⟩ | ⟨w, dev, i, hfetch, hdecode, hexec⟩ := cycle_next h
  · exact .inl (henters.ttcr.trans (tickPhase_ttcr s))
  · exact .inl (tickPhase_ttcr s)
  · obtain hsame | ⟨a, b, k, rfl, hn, hwritten⟩ := exec_ttcr hexec
    · exact .inl (hsame.trans (tickPhase_ttcr s))
    · exact .inr ⟨w, _, a, b, k, hfetch, hdecode, hn, hwritten⟩

theorem tickPhase_ttmr_of_match {s : State} (h : TicksNext s) : (tickPhase s).ttmr = s.ttmr ||| ttmrIP := by
  rw [tickPhase, markTick, if_pos ((tickMatches_countCycle s).2 h)]
  rfl

theorem tickPhase_ttmr_of_no_match {s : State} (h : ¬TicksNext s) : (tickPhase s).ttmr = s.ttmr := by
  rw [tickPhase, markTick, if_neg (mt (tickMatches_countCycle s).1 h)]
  rfl

/-- Settles O7: the mark of a match is one bit of TTMR. -/
theorem tickPhaseCountsAndMarks : Obligations.TickPhaseCountsAndMarks := by
  intro s
  refine ⟨(tickPhase s).ttmr, ?count, fun k hk => ?others, fun hmatch => ?mark, tickPhase_ttmr_of_no_match⟩
  case count =>
    have hcount : BitVec.ofNat 32 (s.ttcr.toNat + 1) = s.ttcr + 1#32 := by simp [BitVec.ofNat_add]
    rw [hcount]
    exact tickPhase_eq s
  case others =>
    by_cases hmatch : TicksNext s
    · simp [tickPhase_ttmr_of_match hmatch, ttmrIP_getLsbD, hk]
    · rw [tickPhase_ttmr_of_no_match hmatch]
  case mark => simp [tickPhase_ttmr_of_match hmatch, ttmrIP_getLsbD]

/-- Settles O8: such a cycle raises the tick exception in the state after its tick phase. -/
theorem tickMatchDispatches : Obligations.TickMatchDispatches := by
  intro s hmatch hie htee
  have hfires : tickFires s = true := by
    rw [tickFires_iff, State.tickEnabled, hie, State.tee, htee]
    exact ⟨hmatch, rfl⟩
  obtain ⟨t, hnext, henters, hdevice⟩ := raise_next .tick (tickPhase s)
  rw [tickPhase_pc] at henters
  refine ⟨t, ?_, henters, hdevice.trans (tickPhase_device s), ?_, ?_⟩
  · rw [cycle, if_pos hfires, hnext]
  · rw [henters.ttcr, tickPhase_ttcr, BitVec.toNat_add]
    rfl
  · obtain ⟨-, -, -, -, -, -, -, -, -, httmr, -⟩ := henters
    simp [httmr, tickPhase_ttmr_of_match hmatch, ttmrIP_getLsbD]

/-! ### The start of a Run call -/

/-- Between two Run calls a step makes the next call of the host. -/
theorem step_of_call {s : State} {c : HostCall} {rest : List HostCall} (hrun : s.inRun = false)
    (hcalls : s.calls = c :: rest) : step s = hostCall c { s with calls := rest } := by
  simp [step, turn, hrun, hcalls]

/-- Settles O57: the sampled word is the one the bus presents, and its edges are those of the peripheral's line. -/
theorem runCallSamplesInterrupts : Obligations.RunCallSamplesInterrupts := by
  intro n asserted rest s hrun hcalls
  refine ⟨startRun n asserted { s with calls := rest }, interruptWord s.cfg asserted, step_of_call hrun hcalls,
    fun k _ => interruptWord_getLsbD s.cfg asserted k, ?_⟩
  have hfires : (State.edges { s with calls := rest } (interruptWord s.cfg asserted) ≠ 0#32 ∧ s.iee = true) ↔
      asserted = true ∧ s.picsr.getLsbD s.cfg.uartIrqBit = false ∧ s.picmr.getLsbD s.cfg.uartIrqBit = true ∧
        s.sr.getLsbD 2 = true := by
    rw [edges_interruptWord { s with calls := rest } asserted, and_assoc, and_assoc]
    rfl
  obtain ⟨hedge, hs⟩ | ⟨hedge, hs⟩ := startRun_cases n asserted { s with calls := rest } <;> rw [hs]
  · refine ⟨rfl, rfl, ?_⟩
    rw [if_pos (hfires.1 hedge)]
    exact ⟨dispatch_enters .external s.pc _, rfl⟩
  · refine ⟨rfl, rfl, ?_⟩
    rw [if_neg (mt hfires.2 hedge)]
    rfl

/-- A sample without an edge changes PICSR only (60_exceptions.md R290). -/
theorem sampleInterrupts_of_no_edge {w : Word} {s : State} (h : s.edges w = 0#32) :
    sampleInterrupts w s = { s with picsr := w } :=
  if_neg fun hedge => hedge.1 h

theorem sampleInterrupts_picsr (w : Word) (s : State) : (sampleInterrupts w s).picsr = w := by
  unfold sampleInterrupts
  split <;> rfl

/-- A line that is 1 in PICSR has not risen (R290, R292). -/
theorem edges_getLsbD_of_held {w : Word} {s : State} {k : Nat} (h : s.picsr.getLsbD k = true) :
    (s.edges w).getLsbD k = false := by
  simp [edges_getLsbD, h]

theorem budgetStatus_ne_stop (n : Nat) : budgetStatus n ≠ .returned .stop := by
  unfold budgetStatus
  split <;> simp

/-- A Run call in which the peripheral's line is held starts with its budget (R290). -/
theorem startRun_of_held {n : Nat} {asserted : Bool} {s : State} (h : s.picsr.getLsbD s.cfg.uartIrqBit = true) :
    startRun n asserted s = { s with picsr := interruptWord s.cfg asserted, run := budgetStatus n } := by
  obtain ⟨⟨hedge, _⟩, _⟩ | ⟨_, hs⟩ := startRun_cases n asserted s
  · obtain ⟨_, hlow, _⟩ := (edges_interruptWord s asserted).1 hedge
    cases hlow.symm.trans h
  · exact hs

/-- Settles O58: a held line has no edge, and a sample without an edge dispatches nothing. -/
theorem heldLineDispatchesOnce : Obligations.HeldLineDispatchesOnce := by
  refine ⟨sampleInterrupts_picsr, fun w t k => edges_getLsbD_of_held,
    fun w t hheld => sampleInterrupts_of_no_edge (edges_eq_zero hheld), fun w t hw => ?sameWord,
    fun n asserted rest s hrun hcalls hheld => ?runCall⟩
  case sameWord =>
    subst hw
    exact sampleInterrupts_of_no_edge (edges_eq_zero fun _ _ hk _ => hk)
  case runCall =>
    have hstart := startRun_of_held (n := n) (asserted := asserted) (s := { s with calls := rest }) hheld
    refine ⟨_, (step_of_call hrun hcalls).trans (congrArg Host.Outcome.next hstart), rfl, rfl,
      budgetStatus_ne_stop n, ?_⟩
    rw [interruptWord_getLsbD, decide_eq_true rfl, Bool.and_true]

/-! ### The budget of a Run call -/

/-- How a cycle ends for the Run call it belongs to: it stops the call, by the halt word or the entry of an exception, or
leaves it as it was (60_exceptions.md R301). -/
def StopsOrKeepsRun (s t : State) : Prop :=
  t.calls = s.calls ∧
    ((t.run = .returned .stop ∧ (t.halted = true ∨ ∃ c, t.pc = vectorOf c ∧ t.sr = 0x00008001#32)) ∨ t.run = s.run)

theorem Enters.stopsRun {c : Cause} {p : Word} {s t : State} (h : Enters c p s t) : StopsOrKeepsRun s t := by
  have hcalls := h.calls
  obtain ⟨hpc, hsr, -, -, -, -, -, -, -, -, -, -, -, -, -, -, -, -, hrun, -⟩ := h
  exact ⟨hcalls, .inl ⟨hrun, .inr ⟨c, hpc, hsr⟩⟩⟩

theorem exec_stopsOrKeepsRun {i : Instr} {s t : State} (h : exec i s = .next t) : StopsOrKeepsRun s t := by
  cases exec_systemEffect h with
  | completes _ _ hrun hcalls => exact ⟨hcalls, .inr hrun⟩
  | mtspr a b k _ _ ht =>
    subst ht
    obtain ⟨-, -, -, -, -, -, -, -, hcalls, hrun, -⟩ :=
      sprWrite_frame (decodeSpr (s.sprAddress a k)) (s.reg b) s
    exact ⟨hcalls, .inr hrun⟩
  | enters _ _ henters => exact henters.stopsRun
  | rfe _ _ ht => subst ht; exact ⟨rfl, .inr rfl⟩

theorem cycle_stopsOrKeepsRun {s t : State} (h : cycle s = .next t) : StopsOrKeepsRun s t := by
  have htick : StopsOrKeepsRun (tickPhase s) t := by
    obtain ⟨c, henters⟩ | ⟨dev, rfl⟩ | ⟨w, dev, i, _, _, hexec⟩ := cycle_next h
    · exact henters.stopsRun
    · exact ⟨rfl, .inl ⟨rfl, .inl rfl⟩⟩
    · exact exec_stopsOrKeepsRun (s := { tickPhase s with device := dev }) hexec
  rwa [StopsOrKeepsRun, tickPhase_calls, tickPhase_run] at htick

theorem spendBudget_of_running {n : Nat} {s : State} (h : s.run = .running (n + 1)) :
    spendBudget s = { s with run := .running n } := by
  simp [spendBudget, h]

theorem closeRun_of_returned {r : RunResult} {s : State} (h : s.run = .returned r) : closeRun s = s :=
  if_neg (by simp [h])

/-- The close of a Run call with so many cycles left returns `continue` after the last one (60_exceptions.md R301). -/
theorem closeRun_of_running {n : Nat} {s : State} (h : s.run = .running n) :
    (closeRun s).run = if n = 0 then .returned .continue else .running n := by
  cases n with
  | zero => rw [closeRun, if_pos h]; rfl
  | succ n => rw [closeRun, if_neg (by simp [h])]; exact h

/-- Settles O60: the cycle runs with one cycle less, stops the call or leaves the rest, and the close of the cycle returns
`continue` when none is left. -/
theorem runCallSpendsItsBudget : Obligations.RunCallSpendsItsBudget := by
  intro n s t hrun h
  have hin : s.inRun = true := by simp [State.inRun, hrun]
  rw [step, turn, if_pos hin, spendBudget_of_running hrun] at h
  obtain ⟨u, hu, rfl⟩ := afterCycle_next h
  obtain ⟨hcalls, ⟨hstop, hend⟩ | hkeep⟩ := cycle_stopsOrKeepsRun hu
  · rw [closeRun_of_returned hstop]
    exact ⟨hcalls, .inl ⟨hstop, hend⟩⟩
  · refine ⟨?_, .inr (closeRun_of_running hkeep)⟩
    rw [(closeRun_eq u).1]
    exact hcalls

end Sys2Proof.Machine

/-! SUPPORT. The proofs of the statements of 70_reset_and_hazards.md: the reset state and the call that restores it. -/

namespace Sys2Proof.Machine

/-! ### The reset state -/

/-- The standard parameters meet the spec's requirement on the memory map (20_memory.md R62). -/
theorem standard_wf : Config.standard.wf = true := by decide

/-- The fixed bit of SR is set in the reset state (10_state.md R26). -/
theorem reset_fixedOne : State.reset.sr.getLsbD 15 = true := by decide

theorem reset_reg (r : Reg) : State.reset.reg r = 0#32 := Vector.getElem_replicate r.isLt

/-- Every translating set of an MMU after reset holds zero in both its registers, so none is valid (R320). -/
theorem mmuReset_set {set : Nat} (h : set < 64) : Mmu.reset.mr[set]? = some 0#32 ∧ Mmu.reset.tr[set]? = some 0#32 := by
  have hzero : (Vector.replicate 128 (0#32 : Word))[set]? = some 0#32 :=
    Vector.getElem?_replicate_of_lt (by omega)
  exact ⟨hzero, hzero⟩

/-- Settles O22: no memory is listed, the parameters are the standard ones, FO is set and no Run call is under way. -/
theorem resetMeetsInvariant : Obligations.ResetMeetsInvariant := by
  have hbelow : State.reset.mem.below (State.reset.cfg.maxRamAddress.toNat + 1) = true := rfl
  have hrun : State.reset.run ≠ .running 0 := nofun
  exact ⟨wf_reset, hbelow, standard_wf, reset_fixedOne, hrun⟩

/-! ### The Reset call -/

theorem hostReset_reg (s : State) (r : Reg) : (hostReset s).reg r = 0#32 := reset_reg r

@[simp] theorem hostReset_dmmu (s : State) : (hostReset s).dmmu = Mmu.reset := rfl
@[simp] theorem hostReset_immu (s : State) : (hostReset s).immu = Mmu.reset := rfl

theorem hostReset_sameMemory (s : State) : SameMemory s (hostReset s) := fun _ => rfl

/-- Every translating set of both MMUs is zero after the Reset call (R320). -/
theorem hostReset_sets (s : State) {set : Nat} (h : set < 64) :
    (hostReset s).dmmu.mr[set]? = some 0#32 ∧ (hostReset s).dmmu.tr[set]? = some 0#32 ∧
      (hostReset s).immu.mr[set]? = some 0#32 ∧ (hostReset s).immu.tr[set]? = some 0#32 := by
  obtain ⟨hmr, htr⟩ := mmuReset_set h
  rw [hostReset_dmmu, hostReset_immu]
  exact ⟨hmr, htr, hmr, htr⟩

/-- Settles O59: the step makes the Reset call, which writes every element of R320 and nothing of memory, the parameters or
the peripheral. The elements that are one word or one bit are those written out in `hostReset`. -/
theorem resetCallRestoresResetValues : Obligations.ResetCallRestoresResetValues := by
  intro rest s hrun hcalls
  have hmem : SameMemory s (hostReset { s with calls := rest }) := hostReset_sameMemory { s with calls := rest }
  exact ⟨hostReset { s with calls := rest }, step_of_call hrun hcalls, hostReset_reg _, rfl, rfl, rfl, rfl, rfl, rfl, rfl,
    rfl, rfl, rfl, rfl, rfl, rfl, fun _ h => hostReset_sets _ h, hmem, rfl, rfl⟩

end Sys2Proof.Machine

/-! SUPPORT. The proof of the statement about the words written out from 95_test_vectors.md: which row each word is of. -/

namespace Sys2Proof

/-- Primary opcode 0x07 is one without a row (30_encoding.md R116). -/
theorem decode_opcode07 {w : Word} (h : opcodeOf w = 0x07) : decode w = .error .unassignedPrimary := by
  rw [decode, h]; rfl

/-- Settles O5: each word has the fixed bits of the row of its instruction and the operands in the row's fields, and the
last has an opcode without a row. The word of `l.muld` has other bits set too, which a refused row does not read (R113). -/
theorem writtenOutWordsDecode : Obligations.WrittenOutWordsDecode := by
  have follows (w i) := (decoderFollowsTheTable w i).2
  exact ⟨follows _ _ (by decide), follows _ _ (by decide), follows _ _ (by decide), follows _ _ (by decide),
    follows _ _ (by decide), follows _ _ (by decide), follows _ _ (by decide), follows _ _ (by decide),
    follows _ _ (by decide), decode_opcode07 (by decide)⟩

end Sys2Proof
